-- ==== Sys2Proof/Word.lean ====
section
/-! DEFINITION. The word types of the machine: 00_scope R9 (data width 8, short width 16, RAM address 16, port 8). -/
namespace Sys2Proof

/-- A byte: 8 bits (00_scope R17). Also a port address (R9) and a stack's depth counter (10_state R21). -/
abbrev Byte := BitVec 8

/-- A short: 16 bits (00_scope R17). Also a RAM address and the program counter (R9). -/
abbrev Word := BitVec 16

/-- A 4-bit field of a byte. -/
abbrev Nibble := BitVec 4

/-- A colour index 0..3 (10_state R36) or a pixel class 0..3 (46_screen_blitter R241). -/
abbrev Colour := BitVec 2

end Sys2Proof
end

