-- ==== Sys2Proof/Config.lean ====
section
/-! DEFINITION. The parameters of the machine (00_scope R16) and its fixed constants (00_scope R8, R10, R14).
The spec names the parameters as configuration, with a default for each. They are plain data, so that a statement
about every state (State carries its `Config`) is a statement about every value of the parameters. -/
namespace Sys2Proof

/-- `BUDGET_POLICY` (00_scope R15, 40_execution_cycle R118): what happens when the budget reaches 0. -/
inductive BudgetPolicy where
  /-- `Continue`: the budget is refilled. The source's behaviour and the spec's default. -/
  | cont
  /-- `Abort`: the evaluate ends with `Timeout`. -/
  | abort
  deriving DecidableEq, Repr

/-- `SPRITE_ADDR_ADVANCE` (00_scope R16, 46_screen_blitter R247). -/
inductive AddrAdvance where
  /-- `Always`: the sprite address advances on every tile. The source's statement and the spec's default. -/
  | always
  /-- `Bit2`: the sprite address advances only when auto-advance bit 2 is set. -/
  | bit2
  deriving DecidableEq, Repr

/-- `BLEND` (46_screen_blitter R240): rows 0 to 3 give the colour written for pixel class 0 to 3 under each of the 16
colour selectors; row 4 is the opacity predicate, nonzero for opaque. -/
structure BlendTable where
  row0 : Vector Colour 16
  row1 : Vector Colour 16
  row2 : Vector Colour 16
  row3 : Vector Colour 16
  opaqueRow : Vector Byte 16
  deriving DecidableEq, Repr

/-- The default values of 46_screen_blitter R240. PRESUMED: the spec marks them as general knowledge (93 G2, G3); the
cell of `opaqueRow` for selector 1 is the least certain. Log 4. Wrong values would be unsafe for a claim about this
table only; no statement rests on it. -/
def BlendTable.default : BlendTable where
  row0 := #v[0, 0, 0, 0, 1, 0, 1, 1, 2, 2, 0, 2, 3, 3, 3, 0]
  row1 := #v[0, 1, 2, 3, 0, 1, 2, 3, 0, 1, 2, 3, 0, 1, 2, 3]
  row2 := #v[1, 2, 3, 1, 1, 2, 3, 1, 1, 2, 3, 1, 1, 2, 3, 1]
  row3 := #v[2, 3, 1, 2, 2, 3, 1, 2, 2, 3, 1, 2, 2, 3, 1, 2]
  opaqueRow := #v[1, 0, 1, 1, 1, 0, 1, 1, 1, 1, 0, 1, 1, 1, 1, 0]

/-- The parameters of 00_scope R16. -/
structure Config where
  /-- `BUDGET` (R15). -/
  budget : Nat
  /-- `BUDGET_POLICY` (R15). -/
  budgetPolicy : BudgetPolicy
  /-- `SCREEN_W0` (R11). -/
  screenW0 : Word
  /-- `SCREEN_H0` (R11). -/
  screenH0 : Word
  /-- `BLEND`, with `OPAQUE_ROW` (R12, R13). -/
  blend : BlendTable
  /-- `SPRITE_ADDR_ADVANCE`. -/
  addrAdvance : AddrAdvance
  deriving DecidableEq, Repr

/-- The spec's defaults (00_scope R16). -/
def Config.default : Config where
  budget := 0x40000
  budgetPolicy := .cont
  screenW0 := 0
  screenH0 := 0
  blend := .default
  addrAdvance := .always

/-- The program load offset (00_scope R14), which is also the reset vector (70_reset R303). -/
def loadOffset : Word := 0x0100

/-- The number of bytes of RAM, 0x10000 (00_scope R8): the memory size of the sprite bounds check (46_screen_blitter R246). -/
def ramSize : Nat := 0x10000

/-- The number of ports of the device page (00_scope R8). -/
def portCount : Nat := 256

/-- The data bytes of one stack (00_scope R10). -/
def stackCapacity : Nat := 255

/-- The longest program image that `load` takes: 0x0100..0xFFFF (70_reset R310). -/
def maxImageSize : Nat := 0xFF00

end Sys2Proof
end

