-- ==== Sys2Proof/WellFormed.lean ====
section
/-! DEFINITION. What must hold of the data given to the machine before it runs. -/
namespace Sys2Proof

/-- Every instruction is well-formed: all 256 opcode bytes are defined and each mode combination is legal with every
operation (30_encoding R97, R98), and an immediate has its width by its type (R90). There is nothing to refuse. Log 11. -/
def Instr.wellFormed (_ : Instr) : Bool := true

/-- `load` takes an image of at most 0xFF00 bytes: a longer one does not fit in 0x0100..0xFFFF (70_reset R310). -/
def imageFits (image : List Byte) : Bool := decide (image.length ≤ maxImageSize)

/-- A configuration with a budget: the loop decrements `budget` before it tests it for 0 (40_execution_cycle R118), so the
rules give `BUDGET` a meaning only when it is at least 1. Log 3. -/
def Config.wellFormed (c : Config) : Bool := decide (0 < c.budget)

end Sys2Proof
end

