-- ==== Sys2Proof/Decode.lean ====
section
/-! DEFINITION. Decoding (30_encoding R90 to R100) and encoding. The decoder reads the mode bits and the base operation from the
opcode byte; the encoder is written from opcode_table.json's `match` column, row by row. -/
namespace Sys2Proof

/-- The short with high byte `hi` and low byte `lo`: `(hi << 8) | lo` (00_scope R17). -/
def shortOf (hi lo : Byte) : Word := hi ++ lo

/-- v[15:8] (00_scope R17). -/
def highByte (v : Word) : Byte := v.extractLsb' 8 8

/-- v[7:0] (00_scope R17). -/
def lowByte (v : Word) : Byte := v.extractLsb' 0 8

/-- Mode bit k, bit 7 of the opcode byte (30_encoding R91). -/
def keepBit (b : Byte) : Bool := b.getLsbD 7

/-- Mode bit r, bit 6 of the opcode byte (30_encoding R91). -/
def returnBit (b : Byte) : Bool := b.getLsbD 6

/-- Mode bit s, bit 5 of the opcode byte (30_encoding R91). -/
def shortBit (b : Byte) : Bool := b.getLsbD 5

/-- The 32 base operations, in the order of 30_encoding R92. -/
inductive BaseOp where
  | lit | inc | pop | nip | swp | rot | dup | ovr
  | equ | neq | gth | lth | jmp | jcn | jsr | sth
  | ldz | stz | ldr | str | lda | sta | dei | deo
  | add | sub | mul | div | and | ora | eor | sft
  deriving DecidableEq, Repr

/-- The base operation numbered `n` (30_encoding R92). -/
def BaseOp.numbered (n : Nat) : BaseOp :=
  match n with
  | 0 => .lit
  | 1 => .inc
  | 2 => .pop
  | 3 => .nip
  | 4 => .swp
  | 5 => .rot
  | 6 => .dup
  | 7 => .ovr
  | 8 => .equ
  | 9 => .neq
  | 10 => .gth
  | 11 => .lth
  | 12 => .jmp
  | 13 => .jcn
  | 14 => .jsr
  | 15 => .sth
  | 16 => .ldz
  | 17 => .stz
  | 18 => .ldr
  | 19 => .str
  | 20 => .lda
  | 21 => .sta
  | 22 => .dei
  | 23 => .deo
  | 24 => .add
  | 25 => .sub
  | 26 => .mul
  | 27 => .div
  | 28 => .and
  | 29 => .ora
  | 30 => .eor
  | _ => .sft

/-- The form of an operation that the mode bits k, r, s select, its eight forms given in the order of the byte's bits 7:5
with s counting fastest (30_encoding R91). -/
def modeForm (k r s : Bool) (f f2 fr f2r fk f2k fkr f2kr : Instr) : Instr :=
  match k, r, s with
  | false, false, false => f
  | false, false, true => f2
  | false, true, false => fr
  | false, true, true => f2r
  | true, false, false => fk
  | true, false, true => f2k
  | true, true, false => fkr
  | true, true, true => f2kr

/-- The instruction that base operation `op` with modes k, r, s is (30_encoding R97). `i1` and `i2` are the 8-bit and the
16-bit immediate that follow the opcode; only LIT uses one (R94, R95). LIT with k = r = s = 0 is BRK (R93). -/
def instrOf (op : BaseOp) (k r s : Bool) (i1 : Byte) (i2 : Word) : Instr :=
  match op with
  | .lit => modeForm k r s .brk (.lit2 i2) (.litr i1) (.lit2r i2) (.lit i1) (.lit2k i2) (.litkr i1) (.lit2kr i2)
  | .inc => modeForm k r s .inc .inc2 .incr .inc2r .inck .inc2k .inckr .inc2kr
  | .pop => modeForm k r s .pop .pop2 .popr .pop2r .popk .pop2k .popkr .pop2kr
  | .nip => modeForm k r s .nip .nip2 .nipr .nip2r .nipk .nip2k .nipkr .nip2kr
  | .swp => modeForm k r s .swp .swp2 .swpr .swp2r .swpk .swp2k .swpkr .swp2kr
  | .rot => modeForm k r s .rot .rot2 .rotr .rot2r .rotk .rot2k .rotkr .rot2kr
  | .dup => modeForm k r s .dup .dup2 .dupr .dup2r .dupk .dup2k .dupkr .dup2kr
  | .ovr => modeForm k r s .ovr .ovr2 .ovrr .ovr2r .ovrk .ovr2k .ovrkr .ovr2kr
  | .equ => modeForm k r s .equ .equ2 .equr .equ2r .equk .equ2k .equkr .equ2kr
  | .neq => modeForm k r s .neq .neq2 .neqr .neq2r .neqk .neq2k .neqkr .neq2kr
  | .gth => modeForm k r s .gth .gth2 .gthr .gth2r .gthk .gth2k .gthkr .gth2kr
  | .lth => modeForm k r s .lth .lth2 .lthr .lth2r .lthk .lth2k .lthkr .lth2kr
  | .jmp => modeForm k r s .jmp .jmp2 .jmpr .jmp2r .jmpk .jmp2k .jmpkr .jmp2kr
  | .jcn => modeForm k r s .jcn .jcn2 .jcnr .jcn2r .jcnk .jcn2k .jcnkr .jcn2kr
  | .jsr => modeForm k r s .jsr .jsr2 .jsrr .jsr2r .jsrk .jsr2k .jsrkr .jsr2kr
  | .sth => modeForm k r s .sth .sth2 .sthr .sth2r .sthk .sth2k .sthkr .sth2kr
  | .ldz => modeForm k r s .ldz .ldz2 .ldzr .ldz2r .ldzk .ldz2k .ldzkr .ldz2kr
  | .stz => modeForm k r s .stz .stz2 .stzr .stz2r .stzk .stz2k .stzkr .stz2kr
  | .ldr => modeForm k r s .ldr .ldr2 .ldrr .ldr2r .ldrk .ldr2k .ldrkr .ldr2kr
  | .str => modeForm k r s .str .str2 .strr .str2r .strk .str2k .strkr .str2kr
  | .lda => modeForm k r s .lda .lda2 .ldar .lda2r .ldak .lda2k .ldakr .lda2kr
  | .sta => modeForm k r s .sta .sta2 .star .sta2r .stak .sta2k .stakr .sta2kr
  | .dei => modeForm k r s .dei .dei2 .deir .dei2r .deik .dei2k .deikr .dei2kr
  | .deo => modeForm k r s .deo .deo2 .deor .deo2r .deok .deo2k .deokr .deo2kr
  | .add => modeForm k r s .add .add2 .addr .add2r .addk .add2k .addkr .add2kr
  | .sub => modeForm k r s .sub .sub2 .subr .sub2r .subk .sub2k .subkr .sub2kr
  | .mul => modeForm k r s .mul .mul2 .mulr .mul2r .mulk .mul2k .mulkr .mul2kr
  | .div => modeForm k r s .div .div2 .divr .div2r .divk .div2k .divkr .div2kr
  | .and => modeForm k r s .and .and2 .andr .and2r .andk .and2k .andkr .and2kr
  | .ora => modeForm k r s .ora .ora2 .orar .ora2r .orak .ora2k .orakr .ora2kr
  | .eor => modeForm k r s .eor .eor2 .eorr .eor2r .eork .eor2k .eorkr .eor2kr
  | .sft => modeForm k r s .sft .sft2 .sftr .sft2r .sftk .sft2k .sftkr .sft2kr

/-- The instruction whose opcode byte is `b`, with `b1` and `b2` the two bytes after it. Total: every byte selects exactly one
instruction (30_encoding R97, R98; 40_execution_cycle R113). -/
def decodeBytes (b b1 b2 : Byte) : Instr :=
  instrOf (BaseOp.numbered (b.extractLsb' 0 5).toNat) (keepBit b) (returnBit b) (shortBit b) b1 (shortOf b1 b2)

/-- The length in bytes of the instruction whose opcode byte is `b` (30_encoding R100). -/
def lengthOf (b : Byte) : Nat :=
  if b ≠ 0 ∧ b.extractLsb' 0 5 = 0 then (if shortBit b then 3 else 2) else 1

/-- Why a list of bytes holds no whole instruction. No opcode byte is refused (30_encoding R98): only the end of the bytes is. -/
inductive DecodeError where
  /-- There is no byte. -/
  | noOpcode
  /-- A LIT form's immediate (30_encoding R90) runs past the last byte. -/
  | immediateCutShort
  deriving DecidableEq, Repr

/-- The first instruction of a list of bytes, and the bytes after it. -/
def decode (bytes : List Byte) : Except DecodeError (Instr × List Byte) :=
  match bytes with
  | [] => .error .noOpcode
  | b :: rest =>
    if lengthOf b = 1 then .ok (decodeBytes b 0 0, rest)
    else if lengthOf b = 2 then
      match rest with
      | b1 :: rest' => .ok (decodeBytes b b1 0, rest')
      | [] => .error .immediateCutShort
    else
      match rest with
      | b1 :: b2 :: rest' => .ok (decodeBytes b b1 b2, rest')
      | _ => .error .immediateCutShort

/-- The opcode byte of an instruction: the `match` value of its row of opcode_table.json. -/
def Instr.opcode (i : Instr) : Byte :=
  match i with
  | .brk => 0x00
  | .inc => 0x01
  | .pop => 0x02
  | .nip => 0x03
  | .swp => 0x04
  | .rot => 0x05
  | .dup => 0x06
  | .ovr => 0x07
  | .equ => 0x08
  | .neq => 0x09
  | .gth => 0x0A
  | .lth => 0x0B
  | .jmp => 0x0C
  | .jcn => 0x0D
  | .jsr => 0x0E
  | .sth => 0x0F
  | .ldz => 0x10
  | .stz => 0x11
  | .ldr => 0x12
  | .str => 0x13
  | .lda => 0x14
  | .sta => 0x15
  | .dei => 0x16
  | .deo => 0x17
  | .add => 0x18
  | .sub => 0x19
  | .mul => 0x1A
  | .div => 0x1B
  | .and => 0x1C
  | .ora => 0x1D
  | .eor => 0x1E
  | .sft => 0x1F
  | .lit2 _ => 0x20
  | .inc2 => 0x21
  | .pop2 => 0x22
  | .nip2 => 0x23
  | .swp2 => 0x24
  | .rot2 => 0x25
  | .dup2 => 0x26
  | .ovr2 => 0x27
  | .equ2 => 0x28
  | .neq2 => 0x29
  | .gth2 => 0x2A
  | .lth2 => 0x2B
  | .jmp2 => 0x2C
  | .jcn2 => 0x2D
  | .jsr2 => 0x2E
  | .sth2 => 0x2F
  | .ldz2 => 0x30
  | .stz2 => 0x31
  | .ldr2 => 0x32
  | .str2 => 0x33
  | .lda2 => 0x34
  | .sta2 => 0x35
  | .dei2 => 0x36
  | .deo2 => 0x37
  | .add2 => 0x38
  | .sub2 => 0x39
  | .mul2 => 0x3A
  | .div2 => 0x3B
  | .and2 => 0x3C
  | .ora2 => 0x3D
  | .eor2 => 0x3E
  | .sft2 => 0x3F
  | .litr _ => 0x40
  | .incr => 0x41
  | .popr => 0x42
  | .nipr => 0x43
  | .swpr => 0x44
  | .rotr => 0x45
  | .dupr => 0x46
  | .ovrr => 0x47
  | .equr => 0x48
  | .neqr => 0x49
  | .gthr => 0x4A
  | .lthr => 0x4B
  | .jmpr => 0x4C
  | .jcnr => 0x4D
  | .jsrr => 0x4E
  | .sthr => 0x4F
  | .ldzr => 0x50
  | .stzr => 0x51
  | .ldrr => 0x52
  | .strr => 0x53
  | .ldar => 0x54
  | .star => 0x55
  | .deir => 0x56
  | .deor => 0x57
  | .addr => 0x58
  | .subr => 0x59
  | .mulr => 0x5A
  | .divr => 0x5B
  | .andr => 0x5C
  | .orar => 0x5D
  | .eorr => 0x5E
  | .sftr => 0x5F
  | .lit2r _ => 0x60
  | .inc2r => 0x61
  | .pop2r => 0x62
  | .nip2r => 0x63
  | .swp2r => 0x64
  | .rot2r => 0x65
  | .dup2r => 0x66
  | .ovr2r => 0x67
  | .equ2r => 0x68
  | .neq2r => 0x69
  | .gth2r => 0x6A
  | .lth2r => 0x6B
  | .jmp2r => 0x6C
  | .jcn2r => 0x6D
  | .jsr2r => 0x6E
  | .sth2r => 0x6F
  | .ldz2r => 0x70
  | .stz2r => 0x71
  | .ldr2r => 0x72
  | .str2r => 0x73
  | .lda2r => 0x74
  | .sta2r => 0x75
  | .dei2r => 0x76
  | .deo2r => 0x77
  | .add2r => 0x78
  | .sub2r => 0x79
  | .mul2r => 0x7A
  | .div2r => 0x7B
  | .and2r => 0x7C
  | .ora2r => 0x7D
  | .eor2r => 0x7E
  | .sft2r => 0x7F
  | .lit _ => 0x80
  | .inck => 0x81
  | .popk => 0x82
  | .nipk => 0x83
  | .swpk => 0x84
  | .rotk => 0x85
  | .dupk => 0x86
  | .ovrk => 0x87
  | .equk => 0x88
  | .neqk => 0x89
  | .gthk => 0x8A
  | .lthk => 0x8B
  | .jmpk => 0x8C
  | .jcnk => 0x8D
  | .jsrk => 0x8E
  | .sthk => 0x8F
  | .ldzk => 0x90
  | .stzk => 0x91
  | .ldrk => 0x92
  | .strk => 0x93
  | .ldak => 0x94
  | .stak => 0x95
  | .deik => 0x96
  | .deok => 0x97
  | .addk => 0x98
  | .subk => 0x99
  | .mulk => 0x9A
  | .divk => 0x9B
  | .andk => 0x9C
  | .orak => 0x9D
  | .eork => 0x9E
  | .sftk => 0x9F
  | .lit2k _ => 0xA0
  | .inc2k => 0xA1
  | .pop2k => 0xA2
  | .nip2k => 0xA3
  | .swp2k => 0xA4
  | .rot2k => 0xA5
  | .dup2k => 0xA6
  | .ovr2k => 0xA7
  | .equ2k => 0xA8
  | .neq2k => 0xA9
  | .gth2k => 0xAA
  | .lth2k => 0xAB
  | .jmp2k => 0xAC
  | .jcn2k => 0xAD
  | .jsr2k => 0xAE
  | .sth2k => 0xAF
  | .ldz2k => 0xB0
  | .stz2k => 0xB1
  | .ldr2k => 0xB2
  | .str2k => 0xB3
  | .lda2k => 0xB4
  | .sta2k => 0xB5
  | .dei2k => 0xB6
  | .deo2k => 0xB7
  | .add2k => 0xB8
  | .sub2k => 0xB9
  | .mul2k => 0xBA
  | .div2k => 0xBB
  | .and2k => 0xBC
  | .ora2k => 0xBD
  | .eor2k => 0xBE
  | .sft2k => 0xBF
  | .litkr _ => 0xC0
  | .inckr => 0xC1
  | .popkr => 0xC2
  | .nipkr => 0xC3
  | .swpkr => 0xC4
  | .rotkr => 0xC5
  | .dupkr => 0xC6
  | .ovrkr => 0xC7
  | .equkr => 0xC8
  | .neqkr => 0xC9
  | .gthkr => 0xCA
  | .lthkr => 0xCB
  | .jmpkr => 0xCC
  | .jcnkr => 0xCD
  | .jsrkr => 0xCE
  | .sthkr => 0xCF
  | .ldzkr => 0xD0
  | .stzkr => 0xD1
  | .ldrkr => 0xD2
  | .strkr => 0xD3
  | .ldakr => 0xD4
  | .stakr => 0xD5
  | .deikr => 0xD6
  | .deokr => 0xD7
  | .addkr => 0xD8
  | .subkr => 0xD9
  | .mulkr => 0xDA
  | .divkr => 0xDB
  | .andkr => 0xDC
  | .orakr => 0xDD
  | .eorkr => 0xDE
  | .sftkr => 0xDF
  | .lit2kr _ => 0xE0
  | .inc2kr => 0xE1
  | .pop2kr => 0xE2
  | .nip2kr => 0xE3
  | .swp2kr => 0xE4
  | .rot2kr => 0xE5
  | .dup2kr => 0xE6
  | .ovr2kr => 0xE7
  | .equ2kr => 0xE8
  | .neq2kr => 0xE9
  | .gth2kr => 0xEA
  | .lth2kr => 0xEB
  | .jmp2kr => 0xEC
  | .jcn2kr => 0xED
  | .jsr2kr => 0xEE
  | .sth2kr => 0xEF
  | .ldz2kr => 0xF0
  | .stz2kr => 0xF1
  | .ldr2kr => 0xF2
  | .str2kr => 0xF3
  | .lda2kr => 0xF4
  | .sta2kr => 0xF5
  | .dei2kr => 0xF6
  | .deo2kr => 0xF7
  | .add2kr => 0xF8
  | .sub2kr => 0xF9
  | .mul2kr => 0xFA
  | .div2kr => 0xFB
  | .and2kr => 0xFC
  | .ora2kr => 0xFD
  | .eor2kr => 0xFE
  | .sft2kr => 0xFF

/-- The immediate bytes of an instruction, in the order they stand after the opcode: high byte first (30_encoding R90). -/
def Instr.immBytes (i : Instr) : List Byte :=
  match i with
  | .brk => []
  | .inc => []
  | .pop => []
  | .nip => []
  | .swp => []
  | .rot => []
  | .dup => []
  | .ovr => []
  | .equ => []
  | .neq => []
  | .gth => []
  | .lth => []
  | .jmp => []
  | .jcn => []
  | .jsr => []
  | .sth => []
  | .ldz => []
  | .stz => []
  | .ldr => []
  | .str => []
  | .lda => []
  | .sta => []
  | .dei => []
  | .deo => []
  | .add => []
  | .sub => []
  | .mul => []
  | .div => []
  | .and => []
  | .ora => []
  | .eor => []
  | .sft => []
  | .lit2 v => [highByte v, lowByte v]
  | .inc2 => []
  | .pop2 => []
  | .nip2 => []
  | .swp2 => []
  | .rot2 => []
  | .dup2 => []
  | .ovr2 => []
  | .equ2 => []
  | .neq2 => []
  | .gth2 => []
  | .lth2 => []
  | .jmp2 => []
  | .jcn2 => []
  | .jsr2 => []
  | .sth2 => []
  | .ldz2 => []
  | .stz2 => []
  | .ldr2 => []
  | .str2 => []
  | .lda2 => []
  | .sta2 => []
  | .dei2 => []
  | .deo2 => []
  | .add2 => []
  | .sub2 => []
  | .mul2 => []
  | .div2 => []
  | .and2 => []
  | .ora2 => []
  | .eor2 => []
  | .sft2 => []
  | .litr v => [v]
  | .incr => []
  | .popr => []
  | .nipr => []
  | .swpr => []
  | .rotr => []
  | .dupr => []
  | .ovrr => []
  | .equr => []
  | .neqr => []
  | .gthr => []
  | .lthr => []
  | .jmpr => []
  | .jcnr => []
  | .jsrr => []
  | .sthr => []
  | .ldzr => []
  | .stzr => []
  | .ldrr => []
  | .strr => []
  | .ldar => []
  | .star => []
  | .deir => []
  | .deor => []
  | .addr => []
  | .subr => []
  | .mulr => []
  | .divr => []
  | .andr => []
  | .orar => []
  | .eorr => []
  | .sftr => []
  | .lit2r v => [highByte v, lowByte v]
  | .inc2r => []
  | .pop2r => []
  | .nip2r => []
  | .swp2r => []
  | .rot2r => []
  | .dup2r => []
  | .ovr2r => []
  | .equ2r => []
  | .neq2r => []
  | .gth2r => []
  | .lth2r => []
  | .jmp2r => []
  | .jcn2r => []
  | .jsr2r => []
  | .sth2r => []
  | .ldz2r => []
  | .stz2r => []
  | .ldr2r => []
  | .str2r => []
  | .lda2r => []
  | .sta2r => []
  | .dei2r => []
  | .deo2r => []
  | .add2r => []
  | .sub2r => []
  | .mul2r => []
  | .div2r => []
  | .and2r => []
  | .ora2r => []
  | .eor2r => []
  | .sft2r => []
  | .lit v => [v]
  | .inck => []
  | .popk => []
  | .nipk => []
  | .swpk => []
  | .rotk => []
  | .dupk => []
  | .ovrk => []
  | .equk => []
  | .neqk => []
  | .gthk => []
  | .lthk => []
  | .jmpk => []
  | .jcnk => []
  | .jsrk => []
  | .sthk => []
  | .ldzk => []
  | .stzk => []
  | .ldrk => []
  | .strk => []
  | .ldak => []
  | .stak => []
  | .deik => []
  | .deok => []
  | .addk => []
  | .subk => []
  | .mulk => []
  | .divk => []
  | .andk => []
  | .orak => []
  | .eork => []
  | .sftk => []
  | .lit2k v => [highByte v, lowByte v]
  | .inc2k => []
  | .pop2k => []
  | .nip2k => []
  | .swp2k => []
  | .rot2k => []
  | .dup2k => []
  | .ovr2k => []
  | .equ2k => []
  | .neq2k => []
  | .gth2k => []
  | .lth2k => []
  | .jmp2k => []
  | .jcn2k => []
  | .jsr2k => []
  | .sth2k => []
  | .ldz2k => []
  | .stz2k => []
  | .ldr2k => []
  | .str2k => []
  | .lda2k => []
  | .sta2k => []
  | .dei2k => []
  | .deo2k => []
  | .add2k => []
  | .sub2k => []
  | .mul2k => []
  | .div2k => []
  | .and2k => []
  | .ora2k => []
  | .eor2k => []
  | .sft2k => []
  | .litkr v => [v]
  | .inckr => []
  | .popkr => []
  | .nipkr => []
  | .swpkr => []
  | .rotkr => []
  | .dupkr => []
  | .ovrkr => []
  | .equkr => []
  | .neqkr => []
  | .gthkr => []
  | .lthkr => []
  | .jmpkr => []
  | .jcnkr => []
  | .jsrkr => []
  | .sthkr => []
  | .ldzkr => []
  | .stzkr => []
  | .ldrkr => []
  | .strkr => []
  | .ldakr => []
  | .stakr => []
  | .deikr => []
  | .deokr => []
  | .addkr => []
  | .subkr => []
  | .mulkr => []
  | .divkr => []
  | .andkr => []
  | .orakr => []
  | .eorkr => []
  | .sftkr => []
  | .lit2kr v => [highByte v, lowByte v]
  | .inc2kr => []
  | .pop2kr => []
  | .nip2kr => []
  | .swp2kr => []
  | .rot2kr => []
  | .dup2kr => []
  | .ovr2kr => []
  | .equ2kr => []
  | .neq2kr => []
  | .gth2kr => []
  | .lth2kr => []
  | .jmp2kr => []
  | .jcn2kr => []
  | .jsr2kr => []
  | .sth2kr => []
  | .ldz2kr => []
  | .stz2kr => []
  | .ldr2kr => []
  | .str2kr => []
  | .lda2kr => []
  | .sta2kr => []
  | .dei2kr => []
  | .deo2kr => []
  | .add2kr => []
  | .sub2kr => []
  | .mul2kr => []
  | .div2kr => []
  | .and2kr => []
  | .ora2kr => []
  | .eor2kr => []
  | .sft2kr => []

/-- The bytes of an instruction: the opcode and then the immediate (30_encoding R90). -/
def encode (i : Instr) : List Byte := i.opcode :: i.immBytes

/-- Byte `n` of an instruction's bits `w`, bit 0 the least significant bit of the first byte. -/
def tableByte (w n : Nat) : Byte := BitVec.ofNat 8 (w / 2 ^ (8 * n))

/-- The three bytes that an instruction with the bits `w`, of which the first `nbits` are given and the others are 0,
begins with: an instruction is at most three bytes long (30_encoding R90). -/
def tableBytes (nbits w : Nat) : List Byte :=
  let v := w % 2 ^ nbits
  [tableByte v 0, tableByte v 1, tableByte v 2]

/-- What the decoder reads from an instruction whose bits are `w`, numbered as opcode_table.json numbers them. -/
def decodeTableWord (nbits w : Nat) : Option Instr :=
  match decode (tableBytes nbits w) with
  | .ok (i, _) => some i
  | .error _ => none

end Sys2Proof
end

