-- ==== Sys2Proof/Machine/State.lean ====
section
/-! DEFINITION. The machine's state (10_state R20 to R43), its value at reset (10_state R42, 70_reset R300), and the reasons a
host transaction can have no next state. No step of the machine has a fault or a refusal (30_encoding R98, 40_execution_cycle
R119): the core's own fatal errors are outcomes of `evaluate`, and so next states. -/
namespace Sys2Proof.Machine

/-- Sparse contents of a region: (index, value) pairs with the indices strictly rising and no value equal to the region's
default, which is what an unlisted index reads as. At `Byte` an entry is a `Host.Cell`. -/
abbrev Cells (α : Type) := List (Nat × α)

/-- The two stacks (10_state R21, R22): the working stack W and the return stack R. -/
inductive StackId where
  | w
  | r
  deriving DecidableEq, Repr

/-- One stack (10_state R21 to R23): the data bytes 0x00..0xFE of its window and its depth counter, the byte 0xFF of the
window, held as a field of its own as R23 allows. An unlisted data byte reads 0x00. -/
structure Stack where
  dat : Cells Byte
  ptr : Byte
  deriving DecidableEq, Repr

/-- A foreground cell (10_state R35): T, "transparent", or a colour index 1, 2, 3. Index 0 cannot be stored. -/
inductive FgCell where
  | transparent
  | one
  | two
  | three
  deriving DecidableEq, Repr

/-- The two pixel layers (10_state R35, R36). -/
inductive Layer where
  | fg
  | bg
  deriving DecidableEq, Repr

/-- The live fields of the screen device (10_state R34 to R37). Row y, column x of a layer is at index `y * 65536 + x`
(`pixelIndex`); an unlisted cell is T in `fg` and 0 in `bg`, the values a resize leaves (46_screen_blitter R236). -/
structure Screen where
  width : Word
  height : Word
  fg : Cells FgCell
  bg : Cells Colour
  dirty : Bool
  deriving DecidableEq, Repr

/-- A palette colour (10_state R39): three 8-bit channels. -/
structure Rgb where
  r : Byte
  g : Byte
  b : Byte
  deriving DecidableEq, Repr

/-- The palette, `pal[0..3]` (10_state R39). -/
structure Palette where
  c0 : Rgb
  c1 : Rgb
  c2 : Rgb
  c3 : Rgb
  deriving DecidableEq, Repr

/-- The fatal errors (60_exceptions R270). -/
inductive FatalKind where
  | stackUnderflow
  | stackOverflow
  | divisionByZero
  deriving DecidableEq, Repr

/-- A fatal error as a primitive raises it: its kind, and the stack whose bound was hit (the active stack for
DivisionByZero) (60_exceptions R273 to R276). -/
structure Fatal where
  kind : FatalKind
  stack : StackId
  deriving DecidableEq, Repr

/-- The error record given to the host (60_exceptions R276). -/
structure ErrorRecord where
  code : Byte
  kind : FatalKind
  stack : StackId
  opcode : Byte
  address : Word
  depth : Byte
  deriving DecidableEq, Repr

/-- The kind and info of a non-fatal diagnostic (60_exceptions R277 to R279). -/
inductive DiagKind where
  /-- UnmappedDevicePort(p, v). -/
  | unmappedDevicePort (p v : Byte)
  /-- SpriteReadOutOfBounds(A, len). -/
  | spriteReadOutOfBounds (a : Word) (len : Nat)
  deriving DecidableEq, Repr

/-- A diagnostic record (60_exceptions R277): code, kind with info, and the address of the opcode that caused it. -/
structure Diagnostic where
  code : Byte
  kind : DiagKind
  address : Word
  deriving DecidableEq, Repr

/-- What a step of the loop keeps for records while it executes an instruction (40_execution_cycle R112): the opcode byte b and its
address p. -/
structure Current where
  opcode : Byte
  address : Word
  deriving DecidableEq, Repr

/-- The outcomes of `evaluate` (40_execution_cycle R119). -/
inductive EvalOutcome where
  | noOp
  | haltedBrk
  | haltedPort
  | error (rec : ErrorRecord)
  | timeout
  deriving DecidableEq, Repr

/-- The state of the machine. `cfg`, `running` and `loadOpen` are the model's own fields (log 1, 7, 10); every other field is
the spec's. -/
structure State where
  /-- The parameters (00_scope R16). No step and no host transaction changes them (log 1). -/
  cfg : Config
  /-- RAM (10_state R31); an unlisted address reads 0x00, its value at reset (R42). -/
  ram : List Host.Cell
  /-- The working stack W (R21). -/
  wst : Stack
  /-- The return stack R (R22). -/
  rst : Stack
  /-- The device page (R32, R33); an unlisted port reads 0x00, its value at reset (R42). -/
  dev : List Host.Cell
  /-- The program counter (R25). -/
  pc : Word
  /-- Mode flag k (R27). -/
  keep : Bool
  /-- Mode flag r (R27). -/
  ret : Bool
  /-- Mode flag s (R27). -/
  short : Bool
  /-- The keep pointer (R29). -/
  kptr : Option Byte
  /-- The budget counter (R30). -/
  budget : Nat
  /-- `b` and `p` of 40_execution_cycle R112 while an instruction executes, and none between instructions (log 8). -/
  current : Option Current
  /-- The screen device (R34 to R37). -/
  screen : Screen
  /-- The palette (R39). -/
  palette : Palette
  /-- `console_out` (R41), oldest byte first. -/
  consoleOut : List Byte
  /-- `diagnostics` (R41), oldest record first. -/
  diagnostics : List Diagnostic
  /-- The outcome of the last `evaluate` (R41); none before the first one has ended (log 9). -/
  outcome : Option EvalOutcome
  /-- An `evaluate` is running: its loop (40_execution_cycle R112) was entered and has not ended (log 7). -/
  running : Bool
  /-- The `load` transaction (70_reset R310) can still be made: no load was made and no evaluate
  entered its loop; a call that is a no-op does not count (log 10). -/
  loadOpen : Bool
  deriving DecidableEq, Repr

/-- Why the machine has no next state. No step raises one: only a host transaction does. -/
inductive Fault where
  /-- Raised by a host transaction made while an `evaluate` runs, which has no step (70_reset R314, 93 U16: stuck). Unsafe only if
  the host breaks its lock: the spec assumes that it does not. -/
  | transactionWhileRunning
  /-- Raised by a second `load`, or by a `load` after an `evaluate` was started: the host makes it once, before the first
  `evaluate` (70_reset R310, 93 U15: no such move). Unsafe only if a host makes it. -/
  | loadNotOpen
  deriving DecidableEq, Repr

/-- Why an instruction or a transaction is refused. -/
inductive Refusal where
  /-- An instruction with no meaning yet: no arm answers it, every instruction is modelled. Safe. -/
  | notModelled (mnemonic : String)
  /-- Raised by `load` for an image of more than 0xFF00 bytes, which the spec refuses (70_reset R310). Safe. -/
  | imageTooLong
  deriving DecidableEq, Repr

/-- An empty stack with every byte zero (10_state R42). -/
def Stack.empty : Stack where
  dat := []
  ptr := 0

/-- The colour with every channel 0x00 (10_state R39). -/
def Rgb.black : Rgb where
  r := 0
  g := 0
  b := 0

/-- The palette at reset (10_state R39, R42). -/
def Palette.black : Palette where
  c0 := .black
  c1 := .black
  c2 := .black
  c3 := .black

/-- The screen at reset (10_state R42): `SCREEN_W0` × `SCREEN_H0`, every `fg` cell T, every `bg` cell 0, not dirty. -/
def Screen.create (cfg : Config) : Screen where
  width := cfg.screenW0
  height := cfg.screenH0
  fg := []
  bg := []
  dirty := false

/-- The machine right after its creation with the parameters `cfg` (70_reset R300, 10_state R42), before a program is loaded. -/
def State.create (cfg : Config) : State where
  cfg := cfg
  ram := []
  wst := .empty
  rst := .empty
  dev := []
  pc := 0
  keep := false
  ret := false
  short := false
  kptr := none
  budget := cfg.budget
  current := none
  screen := .create cfg
  palette := .black
  consoleOut := []
  diagnostics := []
  outcome := none
  running := false
  loadOpen := true

/-- The machine right after reset, with the spec's default parameters (00_scope R16). -/
def State.reset : State := State.create Config.default

end Sys2Proof.Machine
end

