-- ==== Sys2Proof/Machine/Ops.lean ====
section
/-! DEFINITION. The named operations: regions of bytes, RAM, the stack engine's byte primitives (20_memory R56 to R63), the end
of an `evaluate` (40_execution_cycle R120), the trap (60_exceptions R272) and the frame every instruction runs in
(40_execution_cycle R112, R115). -/
namespace Sys2Proof.Machine

/-! ### Sparse regions -/

/-- The value at index `a`; an unlisted index reads `dflt`. -/
def Cells.read {α : Type} (dflt : α) (m : Cells α) (a : Nat) : α :=
  match m with
  | [] => dflt
  | (b, v) :: rest => if a = b then v else Cells.read dflt rest a

/-- Writes `v` at index `a`, keeping the canonical form: writing `dflt` removes the entry. -/
def Cells.write {α : Type} [DecidableEq α] (dflt : α) (m : Cells α) (a : Nat) (v : α) : Cells α :=
  match m with
  | [] => if v = dflt then [] else [(a, v)]
  | (b, w) :: rest =>
    if a < b then (if v = dflt then (b, w) :: rest else (a, v) :: (b, w) :: rest)
    else if a = b then (if v = dflt then rest else (a, v) :: rest)
    else (b, w) :: Cells.write dflt rest a v

/-- Every index of `m` is at least `lo`, the indices strictly rise, and no value is `dflt`. -/
def Cells.wfFrom {α : Type} [DecidableEq α] (dflt : α) (lo : Nat) (m : Cells α) : Bool :=
  match m with
  | [] => true
  | (b, v) :: rest => decide (lo ≤ b) && decide (v ≠ dflt) && Cells.wfFrom dflt (b + 1) rest

/-- The canonical form: indices strictly rising, no value equal to what an unlisted index reads as. -/
def Cells.wf {α : Type} [DecidableEq α] (dflt : α) (m : Cells α) : Bool := Cells.wfFrom dflt 0 m

/-- Every listed index is below `n`. -/
def Cells.below {α : Type} (n : Nat) (m : Cells α) : Bool := m.all fun c => decide (c.1 < n)

/-- The canonical form of RAM: sorted, no zero byte listed, every address below 0x10000 (00_scope R8). -/
def Memory.wf (m : List Host.Cell) : Bool := Cells.wf 0 m && Cells.below ramSize m

/-! ### Words and bytes -/

/-- `zext_16(b)` (00_scope R17). -/
def zext16 (b : Byte) : Word := b.setWidth 16

/-- `sext_16(b)` (00_scope R17). -/
def sext16 (b : Byte) : Word := b.signExtend 16

/-! ### RAM (20_memory R56, R57) -/

/-- `ram[a]`. -/
def State.ramByte (s : State) (a : Word) : Byte := Cells.read 0 s.ram a.toNat

/-- `ram[a] <- v`. -/
def State.setRamByte (s : State) (a : Word) (v : Byte) : State :=
  { s with ram := Cells.write 0 s.ram a.toNat v }

/-- `MemRead(a, n)` with n = 2 when `wide`, else 1, zero-extended (20_memory R56). The second address wraps. -/
def State.memRead (s : State) (wide : Bool) (a : Word) : Word :=
  if wide then shortOf (s.ramByte a) (s.ramByte (a + 1)) else zext16 (s.ramByte a)

/-- `MemWrite(a, n, v)` with n = 2 when `wide`, else 1 (20_memory R57): the high byte first. -/
def State.memWrite (s : State) (wide : Bool) (a : Word) (v : Word) : State :=
  if wide then (s.setRamByte a (highByte v)).setRamByte (a + 1) (lowByte v) else s.setRamByte a (lowByte v)

/-! ### Stacks -/

/-- The stack named `id`. -/
def State.stack (s : State) (id : StackId) : Stack :=
  match id with
  | .w => s.wst
  | .r => s.rst

/-- The state with stack `id` replaced. -/
def State.setStack (s : State) (id : StackId) (st : Stack) : State :=
  match id with
  | .w => { s with wst := st }
  | .r => { s with rst := st }

/-- `S.dat[i]`. -/
def Stack.cell (st : Stack) (i : Nat) : Byte := Cells.read 0 st.dat i

/-- `S.dat[S.ptr] <- v; S.ptr <- S.ptr + 1`. -/
def Stack.pushed (st : Stack) (v : Byte) : Stack where
  dat := Cells.write 0 st.dat st.ptr.toNat v
  ptr := st.ptr + 1

/-! ### What a primitive answers -/

/-- A primitive of an instruction ends with a value, or raises a fatal error at the state it then stands in (40_execution_cycle
R115, R121: the changes made before the raise stay). -/
inductive Res (α : Type) where
  | done (a : α) (s : State)
  | raised (e : Fatal) (s : State)

/-- Run the next primitive; a raise skips it (40_execution_cycle R121). -/
def Res.bind {α β : Type} (x : Res α) (f : α → State → Res β) : Res β :=
  match x with
  | .done a s => f a s
  | .raised e s => .raised e s

/-- `Push8(S, v)` (20_memory R62). -/
def push8 (id : StackId) (v : Byte) (s : State) : Res Unit :=
  if (s.stack id).ptr = 255 then .raised ⟨.stackOverflow, id⟩ s
  else .done () (s.setStack id ((s.stack id).pushed v))

/-- `Pop8(S)` (20_memory R63, R68). Without keep the byte stays in `dat` as a stale byte. -/
def pop8 (id : StackId) (s : State) : Res Byte :=
  if s.keep then
    let kp := s.kptr.getD (s.stack id).ptr
    if kp = 0 then .raised ⟨.stackUnderflow, id⟩ { s with kptr := some kp }
    else .done ((s.stack id).cell (kp - 1).toNat) { s with kptr := some (kp - 1) }
  else if (s.stack id).ptr = 0 then .raised ⟨.stackUnderflow, id⟩ s
  else .done ((s.stack id).cell ((s.stack id).ptr - 1).toNat)
    (s.setStack id { s.stack id with ptr := (s.stack id).ptr - 1 })

/-! ### Records -/

/-- The codes of the fatal errors (60_exceptions R271). -/
def FatalKind.code (k : FatalKind) : Byte :=
  match k with
  | .stackUnderflow => 0x01
  | .stackOverflow => 0x02
  | .divisionByZero => 0x03

/-- The codes of the diagnostics (60_exceptions R271). -/
def DiagKind.code (k : DiagKind) : Byte :=
  match k with
  | .unmappedDevicePort _ _ => 0x10
  | .spriteReadOutOfBounds _ _ => 0x11

/-- b of the instruction that executes. Outside one, where no record is formed, 0 (log 8). -/
def State.opcode (s : State) : Byte :=
  match s.current with
  | some c => c.opcode
  | none => 0

/-- p of the instruction that executes. Outside one, where no record is formed, 0 (log 8). -/
def State.opAddr (s : State) : Word :=
  match s.current with
  | some c => c.address
  | none => 0

/-- `diag E(info)` (60_exceptions R277): appends a record; nothing else changes. -/
def State.diag (s : State) (k : DiagKind) : State :=
  { s with diagnostics := s.diagnostics ++ [⟨k.code, k, s.opAddr⟩] }

/-- The error record of a fatal error raised in `s` (60_exceptions R276). The depth is the real counter of the named stack. -/
def State.errorRecord (s : State) (e : Fatal) : ErrorRecord where
  code := e.kind.code
  kind := e.kind
  stack := e.stack
  opcode := s.opcode
  address := s.opAddr
  depth := (s.stack e.stack).ptr

/-! ### The transient state, and the end of an `evaluate` -/

/-- The transient state at its defaults with the program counter at `v` (40_execution_cycle R111, R120). -/
def State.transientAt (s : State) (v : Word) : State :=
  { s with pc := v, keep := false, ret := false, short := false, kptr := none, current := none, budget := s.cfg.budget }

/-- `evaluate` ends with outcome `o`: the transient state is reset, everything else stays (40_execution_cycle R119, R120). -/
def State.endEvaluate (s : State) (o : EvalOutcome) : State :=
  { s.transientAt 0 with outcome := some o, running := false }

/-- Taking a fatal error (60_exceptions R272): the record is formed, `evaluate` ends with `Error(record)`, the transient state
is reset. Nothing is pushed, no vector is taken (R282). The way back is the host's next transaction (R282, 70_reset R306). -/
def raise (e : Fatal) (s : State) : State := s.endEvaluate (.error (s.errorRecord e))

/-! ### One instruction -/

/-- The decode part of a step (40_execution_cycle R112): the mode flags are those of opcode byte `b`, `kptr` is none, and the
opcode and its address, one before the program counter (10_state R25), are kept for records while it executes. -/
def State.decoded (s : State) (b : Byte) : State :=
  { s with keep := keepBit b, ret := returnBit b, short := shortBit b, kptr := none,
           current := some ⟨b, s.pc - 1⟩ }

/-- The end of an instruction: `kptr` is discarded (10_state R29) with what was kept for records, and a raise ends the evaluate. -/
def finish (x : Res Unit) : Host.Outcome State Fault Refusal :=
  match x with
  | .done _ s => .next { s with kptr := none, current := none }
  | .raised e s => .next (raise e s)

/-- An instruction with opcode byte `b` whose rule is `body` (40_execution_cycle R112, R115), at a state whose program counter
is the address after the opcode. -/
def runForm (b : Byte) (body : State → Res Unit) (s : State) : Host.Outcome State Fault Refusal :=
  finish (body (s.decoded b))

end Sys2Proof.Machine
end

