-- ==== Sys2Proof/Machine/Operands.lean ====
section
/-! DEFINITION. The operand forms (30_encoding R96): the width-dispatching stack primitives (20_memory R64 to R67), the jump
target (40_execution_cycle R125) and the relative address (43_memory_device_ops R172, R173). -/
namespace Sys2Proof.Machine

/-- `act`, the active stack (20_memory R66). -/
def State.active (s : State) : StackId := if s.ret then .r else .w

/-- `oth`, the other stack (20_memory R67). -/
def State.other (s : State) : StackId := if s.ret then .w else .r

/-- `Push16(S, v)`: the high byte, then the low byte (20_memory R64). -/
def push16 (id : StackId) (v : Word) (s : State) : Res Unit :=
  (push8 id (highByte v) s).bind fun _ s => push8 id (lowByte v) s

/-- `Pop16(S)`: the low byte, then the high byte (20_memory R65). -/
def pop16 (id : StackId) (s : State) : Res Word :=
  (pop8 id s).bind fun lo s => (pop8 id s).bind fun hi s => .done (shortOf hi lo) s

/-- `Pop8(act)`. -/
def popByte (s : State) : Res Byte := pop8 s.active s

/-- `Pop16(act)`. -/
def popShort (s : State) : Res Word := pop16 s.active s

/-- `Push8(act, v)`. -/
def pushByte (v : Byte) (s : State) : Res Unit := push8 s.active v s

/-- `Pop()`: by width, a byte zero-extended (20_memory R66). -/
def pop (s : State) : Res Word :=
  if s.short then popShort s else (popByte s).bind fun b s => .done (zext16 b) s

/-- `Push(v)`: by width, the low byte of `v` in byte mode (20_memory R66). -/
def push (v : Word) (s : State) : Res Unit :=
  if s.short then push16 s.active v s else pushByte (lowByte v) s

/-- `PushDst16(v)` (20_memory R67). -/
def pushDst16 (v : Word) (s : State) : Res Unit := push16 s.other v s

/-- `PushDst(v)`: by width, onto the other stack (20_memory R67). -/
def pushDst (v : Word) (s : State) : Res Unit :=
  if s.short then pushDst16 v s else push8 s.other (lowByte v) s

/-- The address `(pc + sext_16(d)) mod 2^16` of a signed 8-bit displacement (40_execution_cycle R125). -/
def State.relative (s : State) (d : Byte) : Word := s.pc + sext16 d

/-- `resolve(t)` (40_execution_cycle R125): absolute in short mode, relative in byte mode. -/
def State.resolve (s : State) (t : Word) : Word := if s.short then t else s.relative (lowByte t)

/-- `pc <- v` (00_scope R17). -/
def State.setPc (s : State) (v : Word) : State := { s with pc := v }

/-- The state change `f`, as a last primitive that raises nothing. -/
def effect (f : State → State) (s : State) : Res Unit := .done () (f s)

end Sys2Proof.Machine
end

