-- ==== Sys2Proof/Machine/Arith.lean ====
section
/-! DEFINITION. Arithmetic and logic: ADD, SUB, MUL, DIV, AND, ORA, EOR, SFT (44_arith_logic R190 to R198).
Each operation is said once; each of its forms is that operation run with its own opcode byte, whose mode bits it takes. -/
namespace Sys2Proof.Machine

/-- A two-operand operation: pops a, then b, and pushes `f b a` (44_arith_logic, its opening). The operands are zero-extended
to 16 bits, and in byte mode the low byte of the result is pushed: the result mod 2^w. -/
def opBinary (f : Word → Word → Word) (s : State) : Res Unit :=
  (pop s).bind fun a s => (pop s).bind fun b s => push (f b a) s

/-- ADD (44_arith_logic R190). -/
def opAdd (s : State) : Res Unit := opBinary (fun b a => b + a) s

/-- ADD, byte 0x18 (R190). -/
def execAdd (s : State) : Host.Outcome State Fault Refusal := runForm 0x18 opAdd s

/-- ADD2, byte 0x38 (R190). -/
def execAdd2 (s : State) : Host.Outcome State Fault Refusal := runForm 0x38 opAdd s

/-- ADDr, byte 0x58 (R190). -/
def execAddr (s : State) : Host.Outcome State Fault Refusal := runForm 0x58 opAdd s

/-- ADD2r, byte 0x78 (R190). -/
def execAdd2r (s : State) : Host.Outcome State Fault Refusal := runForm 0x78 opAdd s

/-- ADDk, byte 0x98 (R190). -/
def execAddk (s : State) : Host.Outcome State Fault Refusal := runForm 0x98 opAdd s

/-- ADD2k, byte 0xB8 (R190). -/
def execAdd2k (s : State) : Host.Outcome State Fault Refusal := runForm 0xB8 opAdd s

/-- ADDkr, byte 0xD8 (R190). -/
def execAddkr (s : State) : Host.Outcome State Fault Refusal := runForm 0xD8 opAdd s

/-- ADD2kr, byte 0xF8 (R190). -/
def execAdd2kr (s : State) : Host.Outcome State Fault Refusal := runForm 0xF8 opAdd s

/-- SUB (44_arith_logic R191). -/
def opSub (s : State) : Res Unit := opBinary (fun b a => b - a) s

/-- SUB, byte 0x19 (R191). -/
def execSub (s : State) : Host.Outcome State Fault Refusal := runForm 0x19 opSub s

/-- SUB2, byte 0x39 (R191). -/
def execSub2 (s : State) : Host.Outcome State Fault Refusal := runForm 0x39 opSub s

/-- SUBr, byte 0x59 (R191). -/
def execSubr (s : State) : Host.Outcome State Fault Refusal := runForm 0x59 opSub s

/-- SUB2r, byte 0x79 (R191). -/
def execSub2r (s : State) : Host.Outcome State Fault Refusal := runForm 0x79 opSub s

/-- SUBk, byte 0x99 (R191). -/
def execSubk (s : State) : Host.Outcome State Fault Refusal := runForm 0x99 opSub s

/-- SUB2k, byte 0xB9 (R191). -/
def execSub2k (s : State) : Host.Outcome State Fault Refusal := runForm 0xB9 opSub s

/-- SUBkr, byte 0xD9 (R191). -/
def execSubkr (s : State) : Host.Outcome State Fault Refusal := runForm 0xD9 opSub s

/-- SUB2kr, byte 0xF9 (R191). -/
def execSub2kr (s : State) : Host.Outcome State Fault Refusal := runForm 0xF9 opSub s

/-- MUL (44_arith_logic R192). -/
def opMul (s : State) : Res Unit := opBinary (fun b a => b * a) s

/-- MUL, byte 0x1A (R192). -/
def execMul (s : State) : Host.Outcome State Fault Refusal := runForm 0x1A opMul s

/-- MUL2, byte 0x3A (R192). -/
def execMul2 (s : State) : Host.Outcome State Fault Refusal := runForm 0x3A opMul s

/-- MULr, byte 0x5A (R192). -/
def execMulr (s : State) : Host.Outcome State Fault Refusal := runForm 0x5A opMul s

/-- MUL2r, byte 0x7A (R192). -/
def execMul2r (s : State) : Host.Outcome State Fault Refusal := runForm 0x7A opMul s

/-- MULk, byte 0x9A (R192). -/
def execMulk (s : State) : Host.Outcome State Fault Refusal := runForm 0x9A opMul s

/-- MUL2k, byte 0xBA (R192). -/
def execMul2k (s : State) : Host.Outcome State Fault Refusal := runForm 0xBA opMul s

/-- MULkr, byte 0xDA (R192). -/
def execMulkr (s : State) : Host.Outcome State Fault Refusal := runForm 0xDA opMul s

/-- MUL2kr, byte 0xFA (R192). -/
def execMul2kr (s : State) : Host.Outcome State Fault Refusal := runForm 0xFA opMul s

/-- DIV (44_arith_logic R193): a zero divisor raises DivisionByZero after both pops (60_exceptions R275). -/
def opDiv (s : State) : Res Unit :=
  (pop s).bind fun a s => (pop s).bind fun b s =>
    if a = 0 then .raised ⟨.divisionByZero, s.active⟩ s else push (b.udiv a) s

/-- DIV, byte 0x1B (R193). -/
def execDiv (s : State) : Host.Outcome State Fault Refusal := runForm 0x1B opDiv s

/-- DIV2, byte 0x3B (R193). -/
def execDiv2 (s : State) : Host.Outcome State Fault Refusal := runForm 0x3B opDiv s

/-- DIVr, byte 0x5B (R193). -/
def execDivr (s : State) : Host.Outcome State Fault Refusal := runForm 0x5B opDiv s

/-- DIV2r, byte 0x7B (R193). -/
def execDiv2r (s : State) : Host.Outcome State Fault Refusal := runForm 0x7B opDiv s

/-- DIVk, byte 0x9B (R193). -/
def execDivk (s : State) : Host.Outcome State Fault Refusal := runForm 0x9B opDiv s

/-- DIV2k, byte 0xBB (R193). -/
def execDiv2k (s : State) : Host.Outcome State Fault Refusal := runForm 0xBB opDiv s

/-- DIVkr, byte 0xDB (R193). -/
def execDivkr (s : State) : Host.Outcome State Fault Refusal := runForm 0xDB opDiv s

/-- DIV2kr, byte 0xFB (R193). -/
def execDiv2kr (s : State) : Host.Outcome State Fault Refusal := runForm 0xFB opDiv s

/-- AND (44_arith_logic R194). -/
def opAnd (s : State) : Res Unit := opBinary (fun b a => b &&& a) s

/-- AND, byte 0x1C (R194). -/
def execAnd (s : State) : Host.Outcome State Fault Refusal := runForm 0x1C opAnd s

/-- AND2, byte 0x3C (R194). -/
def execAnd2 (s : State) : Host.Outcome State Fault Refusal := runForm 0x3C opAnd s

/-- ANDr, byte 0x5C (R194). -/
def execAndr (s : State) : Host.Outcome State Fault Refusal := runForm 0x5C opAnd s

/-- AND2r, byte 0x7C (R194). -/
def execAnd2r (s : State) : Host.Outcome State Fault Refusal := runForm 0x7C opAnd s

/-- ANDk, byte 0x9C (R194). -/
def execAndk (s : State) : Host.Outcome State Fault Refusal := runForm 0x9C opAnd s

/-- AND2k, byte 0xBC (R194). -/
def execAnd2k (s : State) : Host.Outcome State Fault Refusal := runForm 0xBC opAnd s

/-- ANDkr, byte 0xDC (R194). -/
def execAndkr (s : State) : Host.Outcome State Fault Refusal := runForm 0xDC opAnd s

/-- AND2kr, byte 0xFC (R194). -/
def execAnd2kr (s : State) : Host.Outcome State Fault Refusal := runForm 0xFC opAnd s

/-- ORA (44_arith_logic R195). -/
def opOra (s : State) : Res Unit := opBinary (fun b a => b ||| a) s

/-- ORA, byte 0x1D (R195). -/
def execOra (s : State) : Host.Outcome State Fault Refusal := runForm 0x1D opOra s

/-- ORA2, byte 0x3D (R195). -/
def execOra2 (s : State) : Host.Outcome State Fault Refusal := runForm 0x3D opOra s

/-- ORAr, byte 0x5D (R195). -/
def execOrar (s : State) : Host.Outcome State Fault Refusal := runForm 0x5D opOra s

/-- ORA2r, byte 0x7D (R195). -/
def execOra2r (s : State) : Host.Outcome State Fault Refusal := runForm 0x7D opOra s

/-- ORAk, byte 0x9D (R195). -/
def execOrak (s : State) : Host.Outcome State Fault Refusal := runForm 0x9D opOra s

/-- ORA2k, byte 0xBD (R195). -/
def execOra2k (s : State) : Host.Outcome State Fault Refusal := runForm 0xBD opOra s

/-- ORAkr, byte 0xDD (R195). -/
def execOrakr (s : State) : Host.Outcome State Fault Refusal := runForm 0xDD opOra s

/-- ORA2kr, byte 0xFD (R195). -/
def execOra2kr (s : State) : Host.Outcome State Fault Refusal := runForm 0xFD opOra s

/-- EOR (44_arith_logic R196). -/
def opEor (s : State) : Res Unit := opBinary (fun b a => b ^^^ a) s

/-- EOR, byte 0x1E (R196). -/
def execEor (s : State) : Host.Outcome State Fault Refusal := runForm 0x1E opEor s

/-- EOR2, byte 0x3E (R196). -/
def execEor2 (s : State) : Host.Outcome State Fault Refusal := runForm 0x3E opEor s

/-- EORr, byte 0x5E (R196). -/
def execEorr (s : State) : Host.Outcome State Fault Refusal := runForm 0x5E opEor s

/-- EOR2r, byte 0x7E (R196). -/
def execEor2r (s : State) : Host.Outcome State Fault Refusal := runForm 0x7E opEor s

/-- EORk, byte 0x9E (R196). -/
def execEork (s : State) : Host.Outcome State Fault Refusal := runForm 0x9E opEor s

/-- EOR2k, byte 0xBE (R196). -/
def execEor2k (s : State) : Host.Outcome State Fault Refusal := runForm 0xBE opEor s

/-- EORkr, byte 0xDE (R196). -/
def execEorkr (s : State) : Host.Outcome State Fault Refusal := runForm 0xDE opEor s

/-- EOR2kr, byte 0xFE (R196). -/
def execEor2kr (s : State) : Host.Outcome State Fault Refusal := runForm 0xFE opEor s

/-- The shift of SFT (44_arith_logic R197): right by the low nibble of `sh`, then left by the high nibble. -/
def shifted (b : Word) (sh : Byte) : Word := (b >>> (sh.extractLsb' 0 4).toNat) <<< (sh.extractLsb' 4 4).toNat

/-- SFT (44_arith_logic R197): the shift is always a byte and is popped first. -/
def opSft (s : State) : Res Unit := (popByte s).bind fun sh s => (pop s).bind fun b s => push (shifted b sh) s

/-- SFT, byte 0x1F (R197). -/
def execSft (s : State) : Host.Outcome State Fault Refusal := runForm 0x1F opSft s

/-- SFT2, byte 0x3F (R197). -/
def execSft2 (s : State) : Host.Outcome State Fault Refusal := runForm 0x3F opSft s

/-- SFTr, byte 0x5F (R197). -/
def execSftr (s : State) : Host.Outcome State Fault Refusal := runForm 0x5F opSft s

/-- SFT2r, byte 0x7F (R197). -/
def execSft2r (s : State) : Host.Outcome State Fault Refusal := runForm 0x7F opSft s

/-- SFTk, byte 0x9F (R197). -/
def execSftk (s : State) : Host.Outcome State Fault Refusal := runForm 0x9F opSft s

/-- SFT2k, byte 0xBF (R197). -/
def execSft2k (s : State) : Host.Outcome State Fault Refusal := runForm 0xBF opSft s

/-- SFTkr, byte 0xDF (R197). -/
def execSftkr (s : State) : Host.Outcome State Fault Refusal := runForm 0xDF opSft s

/-- SFT2kr, byte 0xFF (R197). -/
def execSft2kr (s : State) : Host.Outcome State Fault Refusal := runForm 0xFF opSft s

end Sys2Proof.Machine
end

