-- ==== Sys2Proof/Machine/Flags.lean ====
section
/-! DEFINITION. The core has no status flags and no condition codes (10_state R28). What stands for them: the byte 0 or 1 a
comparison pushes (42_compare_jump_stash R150 to R153), the test of JCN (R155), and the halt test (10_state R40). -/
namespace Sys2Proof.Machine

/-- The result byte of a comparison: 0x01 for true, 0x00 for false (10_state R28). -/
def truthByte (c : Bool) : Byte := if c then 0x01 else 0x00

/-- b == a (R150). -/
def equal (b a : Word) : Byte := truthByte (b == a)

/-- b != a (R151). -/
def notEqual (b a : Word) : Byte := truthByte (b != a)

/-- b > a, unsigned (R152). -/
def greater (b a : Word) : Byte := truthByte (a.ult b)

/-- b < a, unsigned (R153). -/
def less (b a : Word) : Byte := truthByte (b.ult a)

/-- The condition of JCN: any nonzero byte is true (R155). -/
def taken (c : Byte) : Bool := c != 0

end Sys2Proof.Machine
end

