-- ==== Sys2Proof/Machine/Control.lean ====
section
/-! DEFINITION. Comparison, control transfer and stash: EQU, NEQ, GTH, LTH, JMP, JCN, JSR, STH (42_compare_jump_stash R150 to R157).
Each operation is said once; each of its forms is that operation run with its own opcode byte, whose mode bits it takes. -/
namespace Sys2Proof.Machine

/-- A comparison: pops a, then b, and pushes one byte, `f b a`, whatever the width (42_compare_jump_stash R150 to R153). -/
def opCompare (f : Word → Word → Byte) (s : State) : Res Unit :=
  (pop s).bind fun a s => (pop s).bind fun b s => pushByte (f b a) s

/-- EQU (42_compare_jump_stash R150). -/
def opEqu (s : State) : Res Unit := opCompare equal s

/-- EQU, byte 0x08 (R150). -/
def execEqu (s : State) : Host.Outcome State Fault Refusal := runForm 0x08 opEqu s

/-- EQU2, byte 0x28 (R150). -/
def execEqu2 (s : State) : Host.Outcome State Fault Refusal := runForm 0x28 opEqu s

/-- EQUr, byte 0x48 (R150). -/
def execEqur (s : State) : Host.Outcome State Fault Refusal := runForm 0x48 opEqu s

/-- EQU2r, byte 0x68 (R150). -/
def execEqu2r (s : State) : Host.Outcome State Fault Refusal := runForm 0x68 opEqu s

/-- EQUk, byte 0x88 (R150). -/
def execEquk (s : State) : Host.Outcome State Fault Refusal := runForm 0x88 opEqu s

/-- EQU2k, byte 0xA8 (R150). -/
def execEqu2k (s : State) : Host.Outcome State Fault Refusal := runForm 0xA8 opEqu s

/-- EQUkr, byte 0xC8 (R150). -/
def execEqukr (s : State) : Host.Outcome State Fault Refusal := runForm 0xC8 opEqu s

/-- EQU2kr, byte 0xE8 (R150). -/
def execEqu2kr (s : State) : Host.Outcome State Fault Refusal := runForm 0xE8 opEqu s

/-- NEQ (42_compare_jump_stash R151). -/
def opNeq (s : State) : Res Unit := opCompare notEqual s

/-- NEQ, byte 0x09 (R151). -/
def execNeq (s : State) : Host.Outcome State Fault Refusal := runForm 0x09 opNeq s

/-- NEQ2, byte 0x29 (R151). -/
def execNeq2 (s : State) : Host.Outcome State Fault Refusal := runForm 0x29 opNeq s

/-- NEQr, byte 0x49 (R151). -/
def execNeqr (s : State) : Host.Outcome State Fault Refusal := runForm 0x49 opNeq s

/-- NEQ2r, byte 0x69 (R151). -/
def execNeq2r (s : State) : Host.Outcome State Fault Refusal := runForm 0x69 opNeq s

/-- NEQk, byte 0x89 (R151). -/
def execNeqk (s : State) : Host.Outcome State Fault Refusal := runForm 0x89 opNeq s

/-- NEQ2k, byte 0xA9 (R151). -/
def execNeq2k (s : State) : Host.Outcome State Fault Refusal := runForm 0xA9 opNeq s

/-- NEQkr, byte 0xC9 (R151). -/
def execNeqkr (s : State) : Host.Outcome State Fault Refusal := runForm 0xC9 opNeq s

/-- NEQ2kr, byte 0xE9 (R151). -/
def execNeq2kr (s : State) : Host.Outcome State Fault Refusal := runForm 0xE9 opNeq s

/-- GTH (42_compare_jump_stash R152). -/
def opGth (s : State) : Res Unit := opCompare greater s

/-- GTH, byte 0x0A (R152). -/
def execGth (s : State) : Host.Outcome State Fault Refusal := runForm 0x0A opGth s

/-- GTH2, byte 0x2A (R152). -/
def execGth2 (s : State) : Host.Outcome State Fault Refusal := runForm 0x2A opGth s

/-- GTHr, byte 0x4A (R152). -/
def execGthr (s : State) : Host.Outcome State Fault Refusal := runForm 0x4A opGth s

/-- GTH2r, byte 0x6A (R152). -/
def execGth2r (s : State) : Host.Outcome State Fault Refusal := runForm 0x6A opGth s

/-- GTHk, byte 0x8A (R152). -/
def execGthk (s : State) : Host.Outcome State Fault Refusal := runForm 0x8A opGth s

/-- GTH2k, byte 0xAA (R152). -/
def execGth2k (s : State) : Host.Outcome State Fault Refusal := runForm 0xAA opGth s

/-- GTHkr, byte 0xCA (R152). -/
def execGthkr (s : State) : Host.Outcome State Fault Refusal := runForm 0xCA opGth s

/-- GTH2kr, byte 0xEA (R152). -/
def execGth2kr (s : State) : Host.Outcome State Fault Refusal := runForm 0xEA opGth s

/-- LTH (42_compare_jump_stash R153). -/
def opLth (s : State) : Res Unit := opCompare less s

/-- LTH, byte 0x0B (R153). -/
def execLth (s : State) : Host.Outcome State Fault Refusal := runForm 0x0B opLth s

/-- LTH2, byte 0x2B (R153). -/
def execLth2 (s : State) : Host.Outcome State Fault Refusal := runForm 0x2B opLth s

/-- LTHr, byte 0x4B (R153). -/
def execLthr (s : State) : Host.Outcome State Fault Refusal := runForm 0x4B opLth s

/-- LTH2r, byte 0x6B (R153). -/
def execLth2r (s : State) : Host.Outcome State Fault Refusal := runForm 0x6B opLth s

/-- LTHk, byte 0x8B (R153). -/
def execLthk (s : State) : Host.Outcome State Fault Refusal := runForm 0x8B opLth s

/-- LTH2k, byte 0xAB (R153). -/
def execLth2k (s : State) : Host.Outcome State Fault Refusal := runForm 0xAB opLth s

/-- LTHkr, byte 0xCB (R153). -/
def execLthkr (s : State) : Host.Outcome State Fault Refusal := runForm 0xCB opLth s

/-- LTH2kr, byte 0xEB (R153). -/
def execLth2kr (s : State) : Host.Outcome State Fault Refusal := runForm 0xEB opLth s

/-- JMP (42_compare_jump_stash R154). -/
def opJmp (s : State) : Res Unit := (pop s).bind fun t s => effect (fun s => s.setPc (s.resolve t)) s

/-- JMP, byte 0x0C (R154). -/
def execJmp (s : State) : Host.Outcome State Fault Refusal := runForm 0x0C opJmp s

/-- JMP2, byte 0x2C (R154). -/
def execJmp2 (s : State) : Host.Outcome State Fault Refusal := runForm 0x2C opJmp s

/-- JMPr, byte 0x4C (R154). -/
def execJmpr (s : State) : Host.Outcome State Fault Refusal := runForm 0x4C opJmp s

/-- JMP2r, byte 0x6C (R154). -/
def execJmp2r (s : State) : Host.Outcome State Fault Refusal := runForm 0x6C opJmp s

/-- JMPk, byte 0x8C (R154). -/
def execJmpk (s : State) : Host.Outcome State Fault Refusal := runForm 0x8C opJmp s

/-- JMP2k, byte 0xAC (R154). -/
def execJmp2k (s : State) : Host.Outcome State Fault Refusal := runForm 0xAC opJmp s

/-- JMPkr, byte 0xCC (R154). -/
def execJmpkr (s : State) : Host.Outcome State Fault Refusal := runForm 0xCC opJmp s

/-- JMP2kr, byte 0xEC (R154). -/
def execJmp2kr (s : State) : Host.Outcome State Fault Refusal := runForm 0xEC opJmp s

/-- JCN (42_compare_jump_stash R155): the target by width, then the condition, always a byte. -/
def opJcn (s : State) : Res Unit :=
  (pop s).bind fun t s => (popByte s).bind fun c s =>
    effect (fun s => if taken c then s.setPc (s.resolve t) else s) s

/-- JCN, byte 0x0D (R155). -/
def execJcn (s : State) : Host.Outcome State Fault Refusal := runForm 0x0D opJcn s

/-- JCN2, byte 0x2D (R155). -/
def execJcn2 (s : State) : Host.Outcome State Fault Refusal := runForm 0x2D opJcn s

/-- JCNr, byte 0x4D (R155). -/
def execJcnr (s : State) : Host.Outcome State Fault Refusal := runForm 0x4D opJcn s

/-- JCN2r, byte 0x6D (R155). -/
def execJcn2r (s : State) : Host.Outcome State Fault Refusal := runForm 0x6D opJcn s

/-- JCNk, byte 0x8D (R155). -/
def execJcnk (s : State) : Host.Outcome State Fault Refusal := runForm 0x8D opJcn s

/-- JCN2k, byte 0xAD (R155). -/
def execJcn2k (s : State) : Host.Outcome State Fault Refusal := runForm 0xAD opJcn s

/-- JCNkr, byte 0xCD (R155). -/
def execJcnkr (s : State) : Host.Outcome State Fault Refusal := runForm 0xCD opJcn s

/-- JCN2kr, byte 0xED (R155). -/
def execJcn2kr (s : State) : Host.Outcome State Fault Refusal := runForm 0xED opJcn s

/-- JSR (42_compare_jump_stash R156): the return address goes to the other stack before the target is popped. -/
def opJsr (s : State) : Res Unit :=
  (pushDst16 s.pc s).bind fun _ s => (pop s).bind fun t s => effect (fun s => s.setPc (s.resolve t)) s

/-- JSR, byte 0x0E (R156). -/
def execJsr (s : State) : Host.Outcome State Fault Refusal := runForm 0x0E opJsr s

/-- JSR2, byte 0x2E (R156). -/
def execJsr2 (s : State) : Host.Outcome State Fault Refusal := runForm 0x2E opJsr s

/-- JSRr, byte 0x4E (R156). -/
def execJsrr (s : State) : Host.Outcome State Fault Refusal := runForm 0x4E opJsr s

/-- JSR2r, byte 0x6E (R156). -/
def execJsr2r (s : State) : Host.Outcome State Fault Refusal := runForm 0x6E opJsr s

/-- JSRk, byte 0x8E (R156). -/
def execJsrk (s : State) : Host.Outcome State Fault Refusal := runForm 0x8E opJsr s

/-- JSR2k, byte 0xAE (R156). -/
def execJsr2k (s : State) : Host.Outcome State Fault Refusal := runForm 0xAE opJsr s

/-- JSRkr, byte 0xCE (R156). -/
def execJsrkr (s : State) : Host.Outcome State Fault Refusal := runForm 0xCE opJsr s

/-- JSR2kr, byte 0xEE (R156). -/
def execJsr2kr (s : State) : Host.Outcome State Fault Refusal := runForm 0xEE opJsr s

/-- STH (42_compare_jump_stash R157). -/
def opSth (s : State) : Res Unit := (pop s).bind fun a s => pushDst a s

/-- STH, byte 0x0F (R157). -/
def execSth (s : State) : Host.Outcome State Fault Refusal := runForm 0x0F opSth s

/-- STH2, byte 0x2F (R157). -/
def execSth2 (s : State) : Host.Outcome State Fault Refusal := runForm 0x2F opSth s

/-- STHr, byte 0x4F (R157). -/
def execSthr (s : State) : Host.Outcome State Fault Refusal := runForm 0x4F opSth s

/-- STH2r, byte 0x6F (R157). -/
def execSth2r (s : State) : Host.Outcome State Fault Refusal := runForm 0x6F opSth s

/-- STHk, byte 0x8F (R157). -/
def execSthk (s : State) : Host.Outcome State Fault Refusal := runForm 0x8F opSth s

/-- STH2k, byte 0xAF (R157). -/
def execSth2k (s : State) : Host.Outcome State Fault Refusal := runForm 0xAF opSth s

/-- STHkr, byte 0xCF (R157). -/
def execSthkr (s : State) : Host.Outcome State Fault Refusal := runForm 0xCF opSth s

/-- STH2kr, byte 0xEF (R157). -/
def execSth2kr (s : State) : Host.Outcome State Fault Refusal := runForm 0xEF opSth s

end Sys2Proof.Machine
end

