-- ==== Sys2Proof/Machine/Screen.lean ====
section
/-! DEFINITION. The screen device and the sprite blitter (46_screen_blitter R230 to R252), and the device page they live in
(10_state R32, R38). -/
namespace Sys2Proof.Machine

/-! ### The device page -/

/-- `dev[p]`. -/
def State.devByte (s : State) (p : Byte) : Byte := Cells.read 0 s.dev p.toNat

/-- `dev[p] <- v`, with no handler. -/
def State.setDevByte (s : State) (p v : Byte) : State := { s with dev := Cells.write 0 s.dev p.toNat v }

/-- A big-endian 16-bit field at ports p and p + 1 mod 256 (45_device_bus R211). -/
def State.devShort (s : State) (p : Byte) : Word := shortOf (s.devByte p) (s.devByte (p + 1))

/-- Writes a big-endian 16-bit field at ports p and p + 1; no handler runs (46_screen_blitter, its opening). -/
def State.setDevShort (s : State) (p : Byte) (v : Word) : State :=
  (s.setDevByte p (highByte v)).setDevByte (p + 1) (lowByte v)

/-- X, the cursor x (46_screen_blitter, its opening). -/
def State.cursorX (s : State) : Word := s.devShort 0x28

/-- Y, the cursor y. -/
def State.cursorY (s : State) : Word := s.devShort 0x2A

/-- A, the sprite source address. -/
def State.spriteAddr (s : State) : Word := s.devShort 0x2C

/-- CTL, the auto-advance control byte (R232). -/
def State.autoCtl (s : State) : Byte := s.devByte 0x26

/-! ### Layers -/

/-- Where row y, column x of a layer stands in its cells. -/
def pixelIndex (x y : Word) : Nat := y.toNat * 65536 + x.toNat

/-- What the foreground stores for a colour: 0 is T (R238). -/
def FgCell.ofColour (c : Colour) : FgCell :=
  if c = 0 then .transparent else if c = 1 then .one else if c = 2 then .two else .three

/-- `fg[y][x]` (10_state R35). -/
def Screen.fgAt (sc : Screen) (x y : Word) : FgCell := Cells.read .transparent sc.fg (pixelIndex x y)

/-- `bg[y][x]` (10_state R36). -/
def Screen.bgAt (sc : Screen) (x y : Word) : Colour := Cells.read 0 sc.bg (pixelIndex x y)

/-- `x < width and y < height` (R237). -/
def Screen.inBounds (sc : Screen) (x y : Word) : Bool := x.ult sc.width && y.ult sc.height

/-- `write_pixel(x, y, c, layer)` (R237 to R239). -/
def Screen.writePixel (sc : Screen) (x y : Word) (c : Colour) (layer : Layer) : Screen :=
  if sc.inBounds x y then
    match layer with
    | .fg =>
      if sc.fgAt x y = .ofColour c then sc
      else { sc with fg := Cells.write .transparent sc.fg (pixelIndex x y) (.ofColour c), dirty := true }
    | .bg =>
      if sc.bgAt x y = c then sc
      else { sc with bg := Cells.write 0 sc.bg (pixelIndex x y) c, dirty := true }
  else sc

/-- `resize()` to `width` × `height` (R236): every `fg` cell T, every `bg` cell 0, `dirty` unchanged. -/
def Screen.resized (sc : Screen) (width height : Word) : Screen :=
  { sc with width := width, height := height, fg := [], bg := [] }

/-! ### The sprite blitter -/

/-- `BLEND[ch][sel]` for a pixel class (R240). -/
def blendColour (t : BlendTable) (ch : Colour) (sel : Nibble) : Colour :=
  if ch = 0 then t.row0[sel.toNat] else if ch = 1 then t.row1[sel.toNat]
  else if ch = 2 then t.row2[sel.toNat] else t.row3[sel.toNat]

/-- `BLEND[4][sel] ≠ 0` (R240, R241). -/
def blendOpaque (t : BlendTable) (sel : Nibble) : Bool := t.opaqueRow[sel.toNat] != 0

/-- What one sprite command draws with: the fields of its command byte (R234) and the opacity of its selector (R247). -/
structure SpriteMode where
  layer : Layer
  flipX : Bool
  flipY : Bool
  twoBpp : Bool
  sel : Nibble
  isOpaque : Bool
  deriving DecidableEq, Repr

/-- The pixel class at column h of a row with plane bytes p0 and p1: bit 7 - h of each (R241, R242). -/
def pixelClass (p0 p1 : Byte) (h : Nat) : Colour :=
  BitVec.ofBool (p1.getLsbD (7 - h)) ++ BitVec.ofBool (p0.getLsbD (7 - h))

/-- Column h of row v of a tile at (x, y) with plane bytes p0 and p1 (R241): skipped when the class is 0 and the selector is
not opaque. Coordinates wrap mod 2^16 (R252). -/
def blitPixel (t : BlendTable) (m : SpriteMode) (x y : Word) (v : Nat) (p0 p1 : Byte) (sc : Screen) (h : Nat) : Screen :=
  if m.isOpaque || pixelClass p0 p1 h != 0 then
    sc.writePixel (x + BitVec.ofNat 16 (if m.flipX then 7 - h else h)) (y + BitVec.ofNat 16 (if m.flipY then 7 - v else v))
      (blendColour t (pixelClass p0 p1 h) m.sel) m.layer
  else sc

/-- Row v of a tile read from RAM address a (R241): its plane bytes at a + v and a + v + 8, columns 7 down to 0. -/
def blitRow (s : State) (m : SpriteMode) (x y : Word) (a : Nat) (sc : Screen) (v : Nat) : Screen :=
  let p0 := s.ramByte (BitVec.ofNat 16 (a + v))
  let p1 := if m.twoBpp then s.ramByte (BitVec.ofNat 16 (a + v + 8)) else 0
  [7, 6, 5, 4, 3, 2, 1, 0].foldl (blitPixel s.cfg.blend m x y v p0 p1) sc

/-- `blit(...)`: one 8×8 tile, rows 0 to 7 (R241). -/
def blit (s : State) (m : SpriteMode) (x y : Word) (a : Nat) (sc : Screen) : Screen :=
  [0, 1, 2, 3, 4, 5, 6, 7].foldl (blitRow s m x y a) sc

/-- The fields of a sprite command byte (R234), with the opacity of its selector. -/
def spriteMode (t : BlendTable) (f : Byte) : SpriteMode where
  twoBpp := f.getLsbD 7
  layer := if f.getLsbD 6 then .fg else .bg
  flipY := f.getLsbD 5
  flipX := f.getLsbD 4
  sel := f.extractLsb' 0 4
  isOpaque := blendOpaque t (f.extractLsb' 0 4)

/-- n of CTL: the sprite command draws n + 1 tiles (R232). -/
def tileCount (ctl : Byte) : Nat := (ctl.extractLsb' 4 4).toNat + 1

/-- dx: 8 when CTL bit 0 is set (R232, R247). -/
def spriteDx (ctl : Byte) : Word := if ctl.getLsbD 0 then 8 else 0

/-- dy: 8 when CTL bit 1 is set (R232, R247). -/
def spriteDy (ctl : Byte) : Word := if ctl.getLsbD 1 then 8 else 0

/-- The bytes one tile takes: `8 << two` (R246). -/
def tileBytes (twoBpp : Bool) : Nat := if twoBpp then 16 else 8

/-- The address step of one tile: `4 << (1 + two)`, or 0 where the configuration gates it with CTL bit 2 (R247). -/
def tileStep (cfg : Config) (ctl : Byte) (twoBpp : Bool) : Nat :=
  if cfg.addrAdvance = .always ∨ ctl.getLsbD 2 then (if twoBpp then 16 else 8) else 0

/-- The screen after tiles 0 to n of a sprite command (R247), tile i at (X + dy·i, Y + dx·i) from address A + step·i. -/
def drawTiles (s : State) (m : SpriteMode) (ctl : Byte) (count : Nat) : Screen :=
  (List.range count).foldl
    (fun sc i => blit s m (s.cursorX + spriteDy ctl * BitVec.ofNat 16 i) (s.cursorY + spriteDx ctl * BitVec.ofNat 16 i)
      (s.spriteAddr.toNat + tileStep s.cfg ctl m.twoBpp * i) sc)
    s.screen

/-- The sprite command (R246 to R248), run on a write to 0x2F with the command byte in `dev[0x2F]`. -/
def spriteCommand (s : State) : State :=
  let ctl := s.autoCtl
  let m := spriteMode s.cfg.blend (s.devByte 0x2F)
  let n := tileCount ctl
  let len := n * tileBytes m.twoBpp
  if ramSize < s.spriteAddr.toNat + len then s.diag (.spriteReadOutOfBounds s.spriteAddr len)
  else
    ((({ s with screen := drawTiles s m ctl n }.setDevShort 0x28 (s.cursorX + spriteDx ctl)).setDevShort 0x2A
      (s.cursorY + spriteDy ctl)).setDevShort 0x2C (BitVec.ofNat 16 (s.spriteAddr.toNat + tileStep s.cfg ctl m.twoBpp * n)))

/-- The pixel command (R245), run on a write to 0x2E with the command byte in `dev[0x2E]`. The cursor advances whether or not
the pixel was in bounds. -/
def pixelCommand (s : State) : State :=
  let f := s.devByte 0x2E
  let x := s.cursorX
  let y := s.cursorY
  let ctl := s.autoCtl
  let s1 := { s with
    screen := s.screen.writePixel x y (f.extractLsb' 0 2) (if f.getLsbD 6 then .fg else .bg) }
  let s2 := if ctl.getLsbD 0 then s1.setDevShort 0x28 (x + 1) else s1
  if ctl.getLsbD 1 then s2.setDevShort 0x2A (y + 1) else s2

/-- The width resize, on a write to 0x23 (R235). -/
def resizeWidth (s : State) : State :=
  { s with screen := s.screen.resized (s.devShort 0x22) s.screen.height }

/-- The height resize, on a write to 0x25 (R235). -/
def resizeHeight (s : State) : State :=
  { s with screen := s.screen.resized s.screen.width (s.devShort 0x24) }

/-- The Screen handler for a byte just stored at port p of slot 2 (R231). -/
def screenHandler (p : Byte) (s : State) : State :=
  if p = 0x23 then resizeWidth s
  else if p = 0x25 then resizeHeight s
  else if p = 0x2E then pixelCommand s
  else if p = 0x2F then spriteCommand s
  else s

/-! ### Composite (R249) -/

/-- One pixel of a frame: its colour index and its RGB value (R249). -/
structure Pixel where
  index : Colour
  rgb : Rgb
  deriving DecidableEq, Repr

/-- A frame of `width` × `height` pixels, as rows from the top, each from the left. -/
structure Frame where
  width : Nat
  height : Nat
  rows : List (List Pixel)
  deriving DecidableEq, Repr

/-- The colour a foreground cell shows: none where it is transparent (10_state R35). -/
def FgCell.shown (c : FgCell) : Option Colour :=
  match c with
  | .transparent => none
  | .one => some 1
  | .two => some 2
  | .three => some 3

/-- `pal[i]` (10_state R39). -/
def Palette.colour (p : Palette) (i : Colour) : Rgb :=
  if i = 0 then p.c0 else if i = 1 then p.c1 else if i = 2 then p.c2 else p.c3

/-- The pixel of the frame at (x, y) (R249). -/
def State.pixelAt (s : State) (x y : Word) : Pixel :=
  let i := (s.screen.fgAt x y).shown.getD (s.screen.bgAt x y)
  ⟨i, s.palette.colour i⟩

/-- `composite()`, a pure function of the screen and the palette (R249, R251). -/
def State.composite (s : State) : Frame where
  width := s.screen.width.toNat
  height := s.screen.height.toNat
  rows := (List.range s.screen.height.toNat).map fun y =>
    (List.range s.screen.width.toNat).map fun x => s.pixelAt (BitVec.ofNat 16 x) (BitVec.ofNat 16 y)

end Sys2Proof.Machine
end

