-- ==== Sys2Proof/Machine/Device.lean ====
section
/-! DEFINITION. The device bus, the System device with the palette, and the Console (45_device_bus R210 to R225). -/
namespace Sys2Proof.Machine

/-- `expand(n) = n | (n << 4)` (R219). -/
def expandNibble (n : Nibble) : Byte := n.setWidth 8 ||| (n.setWidth 8 <<< 4)

/-- A palette channel (R218). -/
inductive Channel where
  | red
  | green
  | blue
  deriving DecidableEq, Repr

/-- `c.chan <- v`. -/
def Rgb.setChannel (c : Rgb) (ch : Channel) (v : Byte) : Rgb :=
  match ch with
  | .red => { c with r := v }
  | .green => { c with g := v }
  | .blue => { c with b := v }

/-- The channel that palette port p sets (R218). -/
def paletteChannel (p : Byte) : Channel :=
  if p = 0x08 ∨ p = 0x09 then .red else if p = 0x0A ∨ p = 0x0B then .green else .blue

/-- The palette update on a write of v to p in 0x08..0x0D (R218): an even port sets colours 0 and 1, an odd one 2 and 3. -/
def Palette.update (pal : Palette) (p v : Byte) : Palette :=
  let ch := paletteChannel p
  let hi := expandNibble (v.extractLsb' 4 4)
  let lo := expandNibble (v.extractLsb' 0 4)
  if p.getLsbD 0 then { pal with c2 := pal.c2.setChannel ch hi, c3 := pal.c3.setChannel ch lo }
  else { pal with c0 := pal.c0.setChannel ch hi, c1 := pal.c1.setChannel ch lo }

/-- The System handler (R216 to R221): only the palette ports do more than the store. -/
def systemHandler (p v : Byte) (s : State) : State :=
  if 0x08 ≤ p.toNat ∧ p.toNat ≤ 0x0D then { s with palette := s.palette.update p v } else s

/-- The Console handler (R222, R223): port 0x18 appends to `console_out`. -/
def consoleHandler (p v : Byte) (s : State) : State :=
  if p = 0x18 then { s with consoleOut := s.consoleOut ++ [v] } else s

/-- The device slot of a port: `p[7:4]` (R210). -/
def deviceSlot (p : Byte) : Nat := (p.extractLsb' 4 4).toNat

/-- The handler table (R213, R214). -/
def deviceHandler (p v : Byte) (s : State) : State :=
  match deviceSlot p with
  | 0 => systemHandler p v s
  | 1 => consoleHandler p v s
  | 2 => screenHandler p s
  | _ => s.diag (.unmappedDevicePort p v)

/-- `DevRead(p, n)` with n = 2 when `wide`, else 1, zero-extended (R211, R215). -/
def State.devRead (s : State) (wide : Bool) (p : Byte) : Word :=
  if wide then s.devShort p else zext16 (s.devByte p)

/-- `DevWrite(p, 1, v)`: the byte is stored, then the owning device's handler runs (R212). -/
def devWriteByte (p v : Byte) (s : State) : State := deviceHandler p v (s.setDevByte p v)

/-- `DevWrite(p, n, v)` with n = 2 when `wide`, else 1: the high byte first, each with its own handler call (R212). -/
def devWrite (wide : Bool) (p : Byte) (v : Word) (s : State) : State :=
  if wide then devWriteByte (p + 1) (lowByte v) (devWriteByte p (highByte v) s) else devWriteByte p (lowByte v) s

end Sys2Proof.Machine
end

