-- ==== Sys2Proof/Machine/Cycle.lean ====
section
/-! DEFINITION. The execution cycle (40_execution_cycle R110 to R124): entering an `evaluate`, the fetch, BRK, and what follows a
completed instruction. -/
namespace Sys2Proof.Machine

/-- `halted`: `dev[0x0F] ≠ 0` (10_state R40). -/
def State.halted (s : State) : Bool := s.devByte 0x0F != 0

/-- The loop is entered at v: the transient state takes its defaults, everything else is kept (R111, 70_reset R302). -/
def State.enterEvaluate (s : State) (v : Word) : State :=
  { s.transientAt v with running := true, loadOpen := false }

/-- `evaluate(v)` up to its first step (R110, R111). A call that is a no-op only records its outcome (log 9). DESIGN CHOICE (log
10): such a call is not the first `evaluate` of 70_reset R310, so a load that is still open stays open after it. -/
def State.evaluate (s : State) (v : Word) : State :=
  if v = 0 ∨ s.halted then { s with outcome := some .noOp } else s.enterEvaluate v

/-- The instruction at the program counter: the opcode byte and the two bytes after it, of which LIT reads its immediate
(R112, 30_encoding R95). -/
def fetchInstr (s : State) : Instr :=
  decodeBytes (s.ramByte s.pc) (s.ramByte (s.pc + 1)) (s.ramByte (s.pc + 2))

/-- The fetch advances the program counter by 1 (R112, 10_state R25). -/
def State.fetched (s : State) : State := s.setPc (s.pc + 1)

/-- BRK (R114): the evaluate ends with `Halted(Brk)`; no stack is checked and the budget is not decremented. -/
def execBrk (s : State) : Host.Outcome State Fault Refusal := .next (s.endEvaluate .haltedBrk)

/-- `budget_hook()` (R118, 60_exceptions R286). -/
def budgetHook (s : State) : State :=
  match s.cfg.budgetPolicy with
  | .cont => { s with budget := s.cfg.budget }
  | .abort => s.endEvaluate .timeout

/-- The count of a completed instruction that did not halt (R118). -/
def countInstr (s : State) : State :=
  if s.budget - 1 = 0 then budgetHook { s with budget := s.budget - 1 } else { s with budget := s.budget - 1 }

/-- What the loop does after an instruction (R112): nothing more when the instruction ended the evaluate, else the halt test
(R117) and the budget (R118). -/
def afterInstr (s : State) : State :=
  if s.running then (if s.halted then s.endEvaluate .haltedPort else countInstr s) else s

/-- `afterInstr` on an outcome. -/
def afterOutcome (o : Host.Outcome State Fault Refusal) : Host.Outcome State Fault Refusal :=
  match o with
  | .next s => .next (afterInstr s)
  | .fault r => .fault r
  | .refused r => .refused r

end Sys2Proof.Machine
end

