-- ==== Sys2Proof/Machine/MemDev.lean ====
section
/-! DEFINITION. Memory and device access: LDZ, STZ, LDR, STR, LDA, STA, DEI, DEO (43_memory_device_ops R170 to R177).
Each operation is said once; each of its forms is that operation run with its own opcode byte, whose mode bits it takes. -/
namespace Sys2Proof.Machine

/-- LDZ (43_memory_device_ops R170). -/
def opLdz (s : State) : Res Unit := (popByte s).bind fun a s => push (s.memRead s.short (zext16 a)) s

/-- LDZ, byte 0x10 (R170). -/
def execLdz (s : State) : Host.Outcome State Fault Refusal := runForm 0x10 opLdz s

/-- LDZ2, byte 0x30 (R170). -/
def execLdz2 (s : State) : Host.Outcome State Fault Refusal := runForm 0x30 opLdz s

/-- LDZr, byte 0x50 (R170). -/
def execLdzr (s : State) : Host.Outcome State Fault Refusal := runForm 0x50 opLdz s

/-- LDZ2r, byte 0x70 (R170). -/
def execLdz2r (s : State) : Host.Outcome State Fault Refusal := runForm 0x70 opLdz s

/-- LDZk, byte 0x90 (R170). -/
def execLdzk (s : State) : Host.Outcome State Fault Refusal := runForm 0x90 opLdz s

/-- LDZ2k, byte 0xB0 (R170). -/
def execLdz2k (s : State) : Host.Outcome State Fault Refusal := runForm 0xB0 opLdz s

/-- LDZkr, byte 0xD0 (R170). -/
def execLdzkr (s : State) : Host.Outcome State Fault Refusal := runForm 0xD0 opLdz s

/-- LDZ2kr, byte 0xF0 (R170). -/
def execLdz2kr (s : State) : Host.Outcome State Fault Refusal := runForm 0xF0 opLdz s

/-- STZ (43_memory_device_ops R171). -/
def opStz (s : State) : Res Unit :=
  (popByte s).bind fun a s => (pop s).bind fun v s => effect (fun s => s.memWrite s.short (zext16 a) v) s

/-- STZ, byte 0x11 (R171). -/
def execStz (s : State) : Host.Outcome State Fault Refusal := runForm 0x11 opStz s

/-- STZ2, byte 0x31 (R171). -/
def execStz2 (s : State) : Host.Outcome State Fault Refusal := runForm 0x31 opStz s

/-- STZr, byte 0x51 (R171). -/
def execStzr (s : State) : Host.Outcome State Fault Refusal := runForm 0x51 opStz s

/-- STZ2r, byte 0x71 (R171). -/
def execStz2r (s : State) : Host.Outcome State Fault Refusal := runForm 0x71 opStz s

/-- STZk, byte 0x91 (R171). -/
def execStzk (s : State) : Host.Outcome State Fault Refusal := runForm 0x91 opStz s

/-- STZ2k, byte 0xB1 (R171). -/
def execStz2k (s : State) : Host.Outcome State Fault Refusal := runForm 0xB1 opStz s

/-- STZkr, byte 0xD1 (R171). -/
def execStzkr (s : State) : Host.Outcome State Fault Refusal := runForm 0xD1 opStz s

/-- STZ2kr, byte 0xF1 (R171). -/
def execStz2kr (s : State) : Host.Outcome State Fault Refusal := runForm 0xF1 opStz s

/-- LDR (43_memory_device_ops R172). -/
def opLdr (s : State) : Res Unit := (popByte s).bind fun d s => push (s.memRead s.short (s.relative d)) s

/-- LDR, byte 0x12 (R172). -/
def execLdr (s : State) : Host.Outcome State Fault Refusal := runForm 0x12 opLdr s

/-- LDR2, byte 0x32 (R172). -/
def execLdr2 (s : State) : Host.Outcome State Fault Refusal := runForm 0x32 opLdr s

/-- LDRr, byte 0x52 (R172). -/
def execLdrr (s : State) : Host.Outcome State Fault Refusal := runForm 0x52 opLdr s

/-- LDR2r, byte 0x72 (R172). -/
def execLdr2r (s : State) : Host.Outcome State Fault Refusal := runForm 0x72 opLdr s

/-- LDRk, byte 0x92 (R172). -/
def execLdrk (s : State) : Host.Outcome State Fault Refusal := runForm 0x92 opLdr s

/-- LDR2k, byte 0xB2 (R172). -/
def execLdr2k (s : State) : Host.Outcome State Fault Refusal := runForm 0xB2 opLdr s

/-- LDRkr, byte 0xD2 (R172). -/
def execLdrkr (s : State) : Host.Outcome State Fault Refusal := runForm 0xD2 opLdr s

/-- LDR2kr, byte 0xF2 (R172). -/
def execLdr2kr (s : State) : Host.Outcome State Fault Refusal := runForm 0xF2 opLdr s

/-- STR (43_memory_device_ops R173). -/
def opStr (s : State) : Res Unit :=
  (popByte s).bind fun d s => (pop s).bind fun v s => effect (fun s => s.memWrite s.short (s.relative d) v) s

/-- STR, byte 0x13 (R173). -/
def execStr (s : State) : Host.Outcome State Fault Refusal := runForm 0x13 opStr s

/-- STR2, byte 0x33 (R173). -/
def execStr2 (s : State) : Host.Outcome State Fault Refusal := runForm 0x33 opStr s

/-- STRr, byte 0x53 (R173). -/
def execStrr (s : State) : Host.Outcome State Fault Refusal := runForm 0x53 opStr s

/-- STR2r, byte 0x73 (R173). -/
def execStr2r (s : State) : Host.Outcome State Fault Refusal := runForm 0x73 opStr s

/-- STRk, byte 0x93 (R173). -/
def execStrk (s : State) : Host.Outcome State Fault Refusal := runForm 0x93 opStr s

/-- STR2k, byte 0xB3 (R173). -/
def execStr2k (s : State) : Host.Outcome State Fault Refusal := runForm 0xB3 opStr s

/-- STRkr, byte 0xD3 (R173). -/
def execStrkr (s : State) : Host.Outcome State Fault Refusal := runForm 0xD3 opStr s

/-- STR2kr, byte 0xF3 (R173). -/
def execStr2kr (s : State) : Host.Outcome State Fault Refusal := runForm 0xF3 opStr s

/-- LDA (43_memory_device_ops R174): the address is a short in either mode. -/
def opLda (s : State) : Res Unit := (popShort s).bind fun a s => push (s.memRead s.short a) s

/-- LDA, byte 0x14 (R174). -/
def execLda (s : State) : Host.Outcome State Fault Refusal := runForm 0x14 opLda s

/-- LDA2, byte 0x34 (R174). -/
def execLda2 (s : State) : Host.Outcome State Fault Refusal := runForm 0x34 opLda s

/-- LDAr, byte 0x54 (R174). -/
def execLdar (s : State) : Host.Outcome State Fault Refusal := runForm 0x54 opLda s

/-- LDA2r, byte 0x74 (R174). -/
def execLda2r (s : State) : Host.Outcome State Fault Refusal := runForm 0x74 opLda s

/-- LDAk, byte 0x94 (R174). -/
def execLdak (s : State) : Host.Outcome State Fault Refusal := runForm 0x94 opLda s

/-- LDA2k, byte 0xB4 (R174). -/
def execLda2k (s : State) : Host.Outcome State Fault Refusal := runForm 0xB4 opLda s

/-- LDAkr, byte 0xD4 (R174). -/
def execLdakr (s : State) : Host.Outcome State Fault Refusal := runForm 0xD4 opLda s

/-- LDA2kr, byte 0xF4 (R174). -/
def execLda2kr (s : State) : Host.Outcome State Fault Refusal := runForm 0xF4 opLda s

/-- STA (43_memory_device_ops R175): the address is a short in either mode. -/
def opSta (s : State) : Res Unit :=
  (popShort s).bind fun a s => (pop s).bind fun v s => effect (fun s => s.memWrite s.short a v) s

/-- STA, byte 0x15 (R175). -/
def execSta (s : State) : Host.Outcome State Fault Refusal := runForm 0x15 opSta s

/-- STA2, byte 0x35 (R175). -/
def execSta2 (s : State) : Host.Outcome State Fault Refusal := runForm 0x35 opSta s

/-- STAr, byte 0x55 (R175). -/
def execStar (s : State) : Host.Outcome State Fault Refusal := runForm 0x55 opSta s

/-- STA2r, byte 0x75 (R175). -/
def execSta2r (s : State) : Host.Outcome State Fault Refusal := runForm 0x75 opSta s

/-- STAk, byte 0x95 (R175). -/
def execStak (s : State) : Host.Outcome State Fault Refusal := runForm 0x95 opSta s

/-- STA2k, byte 0xB5 (R175). -/
def execSta2k (s : State) : Host.Outcome State Fault Refusal := runForm 0xB5 opSta s

/-- STAkr, byte 0xD5 (R175). -/
def execStakr (s : State) : Host.Outcome State Fault Refusal := runForm 0xD5 opSta s

/-- STA2kr, byte 0xF5 (R175). -/
def execSta2kr (s : State) : Host.Outcome State Fault Refusal := runForm 0xF5 opSta s

/-- DEI (43_memory_device_ops R176; 45_device_bus R211, R215): a plain read, no handler. -/
def opDei (s : State) : Res Unit := (popByte s).bind fun p s => push (s.devRead s.short p) s

/-- DEI, byte 0x16 (R176). -/
def execDei (s : State) : Host.Outcome State Fault Refusal := runForm 0x16 opDei s

/-- DEI2, byte 0x36 (R176). -/
def execDei2 (s : State) : Host.Outcome State Fault Refusal := runForm 0x36 opDei s

/-- DEIr, byte 0x56 (R176). -/
def execDeir (s : State) : Host.Outcome State Fault Refusal := runForm 0x56 opDei s

/-- DEI2r, byte 0x76 (R176). -/
def execDei2r (s : State) : Host.Outcome State Fault Refusal := runForm 0x76 opDei s

/-- DEIk, byte 0x96 (R176). -/
def execDeik (s : State) : Host.Outcome State Fault Refusal := runForm 0x96 opDei s

/-- DEI2k, byte 0xB6 (R176). -/
def execDei2k (s : State) : Host.Outcome State Fault Refusal := runForm 0xB6 opDei s

/-- DEIkr, byte 0xD6 (R176). -/
def execDeikr (s : State) : Host.Outcome State Fault Refusal := runForm 0xD6 opDei s

/-- DEI2kr, byte 0xF6 (R176). -/
def execDei2kr (s : State) : Host.Outcome State Fault Refusal := runForm 0xF6 opDei s

/-- DEO (43_memory_device_ops R177; 45_device_bus R212). -/
def opDeo (s : State) : Res Unit :=
  (popByte s).bind fun p s => (pop s).bind fun v s => effect (fun s => devWrite s.short p v s) s

/-- DEO, byte 0x17 (R177). -/
def execDeo (s : State) : Host.Outcome State Fault Refusal := runForm 0x17 opDeo s

/-- DEO2, byte 0x37 (R177). -/
def execDeo2 (s : State) : Host.Outcome State Fault Refusal := runForm 0x37 opDeo s

/-- DEOr, byte 0x57 (R177). -/
def execDeor (s : State) : Host.Outcome State Fault Refusal := runForm 0x57 opDeo s

/-- DEO2r, byte 0x77 (R177). -/
def execDeo2r (s : State) : Host.Outcome State Fault Refusal := runForm 0x77 opDeo s

/-- DEOk, byte 0x97 (R177). -/
def execDeok (s : State) : Host.Outcome State Fault Refusal := runForm 0x97 opDeo s

/-- DEO2k, byte 0xB7 (R177). -/
def execDeo2k (s : State) : Host.Outcome State Fault Refusal := runForm 0xB7 opDeo s

/-- DEOkr, byte 0xD7 (R177). -/
def execDeokr (s : State) : Host.Outcome State Fault Refusal := runForm 0xD7 opDeo s

/-- DEO2kr, byte 0xF7 (R177). -/
def execDeo2kr (s : State) : Host.Outcome State Fault Refusal := runForm 0xF7 opDeo s

end Sys2Proof.Machine
end

