-- ==== Sys2Proof/Machine/StackOps.lean ====
section
/-! DEFINITION. Stack operations: LIT, INC, POP, NIP, SWP, ROT, DUP, OVR (41_stack_ops R130 to R137).
Each operation is said once; each of its forms is that operation run with its own opcode byte, whose mode bits it takes. -/
namespace Sys2Proof.Machine

/-- LIT (41_stack_ops R130): the immediate `imm`, the `n` bytes after the opcode, is pushed and the program counter moves past
it. The bytes are those the fetch read (log 13). The mode bit k has no effect: nothing is popped (30_encoding R94). -/
def opLit (n : Word) (imm : Word) (s : State) : Res Unit := push imm (s.setPc (s.pc + n))

/-- LIT2, byte 0x20 (R130). -/
def execLit2 (imm : Word) (s : State) : Host.Outcome State Fault Refusal := runForm 0x20 (opLit 2 imm) s

/-- LITr, byte 0x40 (R130). -/
def execLitr (imm : Byte) (s : State) : Host.Outcome State Fault Refusal := runForm 0x40 (opLit 1 (zext16 imm)) s

/-- LIT2r, byte 0x60 (R130). -/
def execLit2r (imm : Word) (s : State) : Host.Outcome State Fault Refusal := runForm 0x60 (opLit 2 imm) s

/-- LIT, byte 0x80 (R130). -/
def execLit (imm : Byte) (s : State) : Host.Outcome State Fault Refusal := runForm 0x80 (opLit 1 (zext16 imm)) s

/-- LIT2k, byte 0xA0 (R130). -/
def execLit2k (imm : Word) (s : State) : Host.Outcome State Fault Refusal := runForm 0xA0 (opLit 2 imm) s

/-- LITkr, byte 0xC0 (R130). -/
def execLitkr (imm : Byte) (s : State) : Host.Outcome State Fault Refusal := runForm 0xC0 (opLit 1 (zext16 imm)) s

/-- LIT2kr, byte 0xE0 (R130). -/
def execLit2kr (imm : Word) (s : State) : Host.Outcome State Fault Refusal := runForm 0xE0 (opLit 2 imm) s

/-- INC (41_stack_ops R131). -/
def opInc (s : State) : Res Unit := (pop s).bind fun a s => push (a + 1) s

/-- INC, byte 0x01 (R131). -/
def execInc (s : State) : Host.Outcome State Fault Refusal := runForm 0x01 opInc s

/-- INC2, byte 0x21 (R131). -/
def execInc2 (s : State) : Host.Outcome State Fault Refusal := runForm 0x21 opInc s

/-- INCr, byte 0x41 (R131). -/
def execIncr (s : State) : Host.Outcome State Fault Refusal := runForm 0x41 opInc s

/-- INC2r, byte 0x61 (R131). -/
def execInc2r (s : State) : Host.Outcome State Fault Refusal := runForm 0x61 opInc s

/-- INCk, byte 0x81 (R131). -/
def execInck (s : State) : Host.Outcome State Fault Refusal := runForm 0x81 opInc s

/-- INC2k, byte 0xA1 (R131). -/
def execInc2k (s : State) : Host.Outcome State Fault Refusal := runForm 0xA1 opInc s

/-- INCkr, byte 0xC1 (R131). -/
def execInckr (s : State) : Host.Outcome State Fault Refusal := runForm 0xC1 opInc s

/-- INC2kr, byte 0xE1 (R131). -/
def execInc2kr (s : State) : Host.Outcome State Fault Refusal := runForm 0xE1 opInc s

/-- POP (41_stack_ops R132). -/
def opPop (s : State) : Res Unit := (pop s).bind fun _ s => .done () s

/-- POP, byte 0x02 (R132). -/
def execPop (s : State) : Host.Outcome State Fault Refusal := runForm 0x02 opPop s

/-- POP2, byte 0x22 (R132). -/
def execPop2 (s : State) : Host.Outcome State Fault Refusal := runForm 0x22 opPop s

/-- POPr, byte 0x42 (R132). -/
def execPopr (s : State) : Host.Outcome State Fault Refusal := runForm 0x42 opPop s

/-- POP2r, byte 0x62 (R132). -/
def execPop2r (s : State) : Host.Outcome State Fault Refusal := runForm 0x62 opPop s

/-- POPk, byte 0x82 (R132). -/
def execPopk (s : State) : Host.Outcome State Fault Refusal := runForm 0x82 opPop s

/-- POP2k, byte 0xA2 (R132). -/
def execPop2k (s : State) : Host.Outcome State Fault Refusal := runForm 0xA2 opPop s

/-- POPkr, byte 0xC2 (R132). -/
def execPopkr (s : State) : Host.Outcome State Fault Refusal := runForm 0xC2 opPop s

/-- POP2kr, byte 0xE2 (R132). -/
def execPop2kr (s : State) : Host.Outcome State Fault Refusal := runForm 0xE2 opPop s

/-- NIP (41_stack_ops R133). -/
def opNip (s : State) : Res Unit := (pop s).bind fun a s => (pop s).bind fun _ s => push a s

/-- NIP, byte 0x03 (R133). -/
def execNip (s : State) : Host.Outcome State Fault Refusal := runForm 0x03 opNip s

/-- NIP2, byte 0x23 (R133). -/
def execNip2 (s : State) : Host.Outcome State Fault Refusal := runForm 0x23 opNip s

/-- NIPr, byte 0x43 (R133). -/
def execNipr (s : State) : Host.Outcome State Fault Refusal := runForm 0x43 opNip s

/-- NIP2r, byte 0x63 (R133). -/
def execNip2r (s : State) : Host.Outcome State Fault Refusal := runForm 0x63 opNip s

/-- NIPk, byte 0x83 (R133). -/
def execNipk (s : State) : Host.Outcome State Fault Refusal := runForm 0x83 opNip s

/-- NIP2k, byte 0xA3 (R133). -/
def execNip2k (s : State) : Host.Outcome State Fault Refusal := runForm 0xA3 opNip s

/-- NIPkr, byte 0xC3 (R133). -/
def execNipkr (s : State) : Host.Outcome State Fault Refusal := runForm 0xC3 opNip s

/-- NIP2kr, byte 0xE3 (R133). -/
def execNip2kr (s : State) : Host.Outcome State Fault Refusal := runForm 0xE3 opNip s

/-- SWP (41_stack_ops R134). -/
def opSwp (s : State) : Res Unit :=
  (pop s).bind fun a s => (pop s).bind fun b s => (push a s).bind fun _ s => push b s

/-- SWP, byte 0x04 (R134). -/
def execSwp (s : State) : Host.Outcome State Fault Refusal := runForm 0x04 opSwp s

/-- SWP2, byte 0x24 (R134). -/
def execSwp2 (s : State) : Host.Outcome State Fault Refusal := runForm 0x24 opSwp s

/-- SWPr, byte 0x44 (R134). -/
def execSwpr (s : State) : Host.Outcome State Fault Refusal := runForm 0x44 opSwp s

/-- SWP2r, byte 0x64 (R134). -/
def execSwp2r (s : State) : Host.Outcome State Fault Refusal := runForm 0x64 opSwp s

/-- SWPk, byte 0x84 (R134). -/
def execSwpk (s : State) : Host.Outcome State Fault Refusal := runForm 0x84 opSwp s

/-- SWP2k, byte 0xA4 (R134). -/
def execSwp2k (s : State) : Host.Outcome State Fault Refusal := runForm 0xA4 opSwp s

/-- SWPkr, byte 0xC4 (R134). -/
def execSwpkr (s : State) : Host.Outcome State Fault Refusal := runForm 0xC4 opSwp s

/-- SWP2kr, byte 0xE4 (R134). -/
def execSwp2kr (s : State) : Host.Outcome State Fault Refusal := runForm 0xE4 opSwp s

/-- ROT (41_stack_ops R135). -/
def opRot (s : State) : Res Unit :=
  (pop s).bind fun a s => (pop s).bind fun b s => (pop s).bind fun c s =>
    (push b s).bind fun _ s => (push a s).bind fun _ s => push c s

/-- ROT, byte 0x05 (R135). -/
def execRot (s : State) : Host.Outcome State Fault Refusal := runForm 0x05 opRot s

/-- ROT2, byte 0x25 (R135). -/
def execRot2 (s : State) : Host.Outcome State Fault Refusal := runForm 0x25 opRot s

/-- ROTr, byte 0x45 (R135). -/
def execRotr (s : State) : Host.Outcome State Fault Refusal := runForm 0x45 opRot s

/-- ROT2r, byte 0x65 (R135). -/
def execRot2r (s : State) : Host.Outcome State Fault Refusal := runForm 0x65 opRot s

/-- ROTk, byte 0x85 (R135). -/
def execRotk (s : State) : Host.Outcome State Fault Refusal := runForm 0x85 opRot s

/-- ROT2k, byte 0xA5 (R135). -/
def execRot2k (s : State) : Host.Outcome State Fault Refusal := runForm 0xA5 opRot s

/-- ROTkr, byte 0xC5 (R135). -/
def execRotkr (s : State) : Host.Outcome State Fault Refusal := runForm 0xC5 opRot s

/-- ROT2kr, byte 0xE5 (R135). -/
def execRot2kr (s : State) : Host.Outcome State Fault Refusal := runForm 0xE5 opRot s

/-- DUP (41_stack_ops R136). -/
def opDup (s : State) : Res Unit := (pop s).bind fun a s => (push a s).bind fun _ s => push a s

/-- DUP, byte 0x06 (R136). -/
def execDup (s : State) : Host.Outcome State Fault Refusal := runForm 0x06 opDup s

/-- DUP2, byte 0x26 (R136). -/
def execDup2 (s : State) : Host.Outcome State Fault Refusal := runForm 0x26 opDup s

/-- DUPr, byte 0x46 (R136). -/
def execDupr (s : State) : Host.Outcome State Fault Refusal := runForm 0x46 opDup s

/-- DUP2r, byte 0x66 (R136). -/
def execDup2r (s : State) : Host.Outcome State Fault Refusal := runForm 0x66 opDup s

/-- DUPk, byte 0x86 (R136). -/
def execDupk (s : State) : Host.Outcome State Fault Refusal := runForm 0x86 opDup s

/-- DUP2k, byte 0xA6 (R136). -/
def execDup2k (s : State) : Host.Outcome State Fault Refusal := runForm 0xA6 opDup s

/-- DUPkr, byte 0xC6 (R136). -/
def execDupkr (s : State) : Host.Outcome State Fault Refusal := runForm 0xC6 opDup s

/-- DUP2kr, byte 0xE6 (R136). -/
def execDup2kr (s : State) : Host.Outcome State Fault Refusal := runForm 0xE6 opDup s

/-- OVR (41_stack_ops R137). -/
def opOvr (s : State) : Res Unit :=
  (pop s).bind fun a s => (pop s).bind fun b s =>
    (push b s).bind fun _ s => (push a s).bind fun _ s => push b s

/-- OVR, byte 0x07 (R137). -/
def execOvr (s : State) : Host.Outcome State Fault Refusal := runForm 0x07 opOvr s

/-- OVR2, byte 0x27 (R137). -/
def execOvr2 (s : State) : Host.Outcome State Fault Refusal := runForm 0x27 opOvr s

/-- OVRr, byte 0x47 (R137). -/
def execOvrr (s : State) : Host.Outcome State Fault Refusal := runForm 0x47 opOvr s

/-- OVR2r, byte 0x67 (R137). -/
def execOvr2r (s : State) : Host.Outcome State Fault Refusal := runForm 0x67 opOvr s

/-- OVRk, byte 0x87 (R137). -/
def execOvrk (s : State) : Host.Outcome State Fault Refusal := runForm 0x87 opOvr s

/-- OVR2k, byte 0xA7 (R137). -/
def execOvr2k (s : State) : Host.Outcome State Fault Refusal := runForm 0xA7 opOvr s

/-- OVRkr, byte 0xC7 (R137). -/
def execOvrkr (s : State) : Host.Outcome State Fault Refusal := runForm 0xC7 opOvr s

/-- OVR2kr, byte 0xE7 (R137). -/
def execOvr2kr (s : State) : Host.Outcome State Fault Refusal := runForm 0xE7 opOvr s

end Sys2Proof.Machine
end

