-- ==== Sys2Proof/Machine/HostMoves.lean ====
section
/-! DEFINITION. The host's transactions (70_reset R305, R306, R310 to R314; 46_screen_blitter R249, R250). The host's schedule is an
input of the machine and no state of it (10_state R43, log 7): a transaction is a function on states, made between steps. -/
namespace Sys2Proof.Machine

/-- A host transaction that changes the state. The others only read it: `State.composite` and the fields themselves (R313). -/
inductive HostMove where
  /-- Creation anew with the same parameters (70_reset R300, R306). -/
  | recreate
  /-- `load(image)` (R310). -/
  | load (image : List Byte)
  /-- `evaluate(v)` (R311), up to its first step. -/
  | evaluate (v : Word)
  /-- `present()` (46_screen_blitter R250); its answer is `State.presentFrame`. -/
  | present
  /-- The host drains `console_out` (10_state R41). -/
  | drainConsole
  /-- The host drains `diagnostics` (10_state R41). -/
  | drainDiagnostics
  deriving DecidableEq, Repr

/-- RAM with the bytes of `image` stored from address `a` on. -/
def State.storeBytes (s : State) (a : Word) (image : List Byte) : State :=
  match image with
  | [] => s
  | v :: rest => (s.setRamByte a v).storeBytes (a + 1) rest

/-- What `present()` answers (46_screen_blitter R250): a frame when dirty, else none. -/
def State.presentFrame (s : State) : Option Frame := if s.screen.dirty then some s.composite else none

/-- `present()`'s effect: the dirty flag is cleared (46_screen_blitter R250). -/
def State.presented (s : State) : State := { s with screen := { s.screen with dirty := false } }

/-- The screen vector, which the host reads and evaluates once per frame (70_reset R305). -/
def State.screenVector (s : State) : Word := s.devShort 0x20

/-- A host transaction. None has a step while an `evaluate` runs (R314, 93 U16). `load` is made once, before the first
`evaluate` that is no no-op (log 10), and refuses an image that does not fit, with nothing written (R310). -/
def hostMove (m : HostMove) (s : State) : Host.Outcome State Fault Refusal :=
  if s.running then .fault .transactionWhileRunning
  else
    match m with
    | .recreate => .next (State.create s.cfg)
    | .load image =>
      if s.loadOpen then
        if imageFits image then .next { s.storeBytes loadOffset image with loadOpen := false }
        else .refused .imageTooLong
      else .fault .loadNotOpen
    | .evaluate v => .next (s.evaluate v)
    | .present => .next s.presented
    | .drainConsole => .next { s with consoleOut := [] }
    | .drainDiagnostics => .next { s with diagnostics := [] }

end Sys2Proof.Machine
end

