-- ==== Sys2Proof/Machine/Step.lean ====
section
/-! DEFINITION. One step of the machine (40_execution_cycle R112). -/
namespace Sys2Proof.Machine

/-- While an `evaluate` runs: fetch, execute, and what follows the instruction (40_execution_cycle R112). Between evaluates the
core does nothing (60_exceptions R292). -/
def step (s : State) : Host.Outcome State Fault Refusal :=
  if s.running then afterOutcome (exec (fetchInstr s) s.fetched) else .next s

/-- The state in which the next step fetches the instruction with bits `w`: an `evaluate` of the reset vector is entered where
none runs, and the instruction's three bytes stand at the program counter (log 14). -/
def State.withFetchWord (s : State) (nbits w : Nat) : State :=
  let t := if s.running then s else s.enterEvaluate loadOffset
  t.storeBytes t.pc (tableBytes nbits w)

end Sys2Proof.Machine
end

