-- ==== Sys2Proof/Safety.lean ====
section
/-! DEFINITION. The terms statements are made in: the modes and operands of an instruction, the states that its completion and
its fatal errors leave, written from the rules without the stack engine's primitives; and the machine's invariant. -/
namespace Sys2Proof

/-! ### Modes of an instruction (30_encoding R91) -/

/-- Mode k of an instruction. -/
def Instr.keep (i : Instr) : Bool := keepBit i.opcode

/-- Mode s of an instruction. -/
def Instr.short (i : Instr) : Bool := shortBit i.opcode

/-- The active stack of an instruction (20_memory R66). -/
def Instr.act (i : Instr) : Machine.StackId := if returnBit i.opcode then .r else .w

/-- The other stack of an instruction (20_memory R67). -/
def Instr.oth (i : Instr) : Machine.StackId := if returnBit i.opcode then .w else .r

/-- w/8: the bytes of one operand of the instruction's width (41_stack_ops, its opening). -/
def Instr.size (i : Instr) : Nat := if i.short then 2 else 1

/-- 2^w: what a result of the instruction's width is taken modulo (44_arith_logic, its opening). -/
def Instr.modulus (i : Instr) : Nat := if i.short then 65536 else 256

namespace Machine

/-! ### Operands on a stack -/

/-- The item of 2 bytes when `wide`, else 1, that ends right below depth `d`, zero-extended: its low byte is on top (20_memory R58). -/
def Stack.item (st : Stack) (wide : Bool) (d : Nat) : Word :=
  if wide then shortOf (st.cell (d - 2)) (st.cell (d - 1)) else zext16 (st.cell (d - 1))

/-- The bytes an item takes on a stack, bottom to top (20_memory R58). -/
def itemBytes (wide : Bool) (v : Word) : List Byte := if wide then [highByte v, lowByte v] else [lowByte v]

/-- Cells with `bytes` written from index `base` on. -/
def writeBytes (dat : Cells Byte) (base : Nat) (bytes : List Byte) : Cells Byte :=
  match bytes with
  | [] => dat
  | b :: rest => writeBytes (Cells.write 0 dat base b) (base + 1) rest

/-- The stack with `bytes` written from depth `base` on and its counter right above them; every other data byte as it was. -/
def Stack.stored (st : Stack) (base : Nat) (bytes : List Byte) : Stack where
  dat := writeBytes st.dat base bytes
  ptr := BitVec.ofNat 8 (base + bytes.length)

/-- The depth an instruction's results start at when it pops `pops` bytes: its operands stay in place with k = 1 (20_memory R68). -/
def pushBase (i : Instr) (s : State) (pops : Nat) : Nat :=
  if i.keep then (s.stack i.act).ptr.toNat else (s.stack i.act).ptr.toNat - pops

/-! ### The states an instruction leaves -/

/-- The state after an instruction, before what it does to stacks, memory, devices and the program counter: only the transient
fields k, r, s and kptr (40_execution_cycle R112) differ from the state before. -/
def State.afterModes (s : State) (i : Instr) : State :=
  { s with keep := keepBit i.opcode, ret := returnBit i.opcode, short := shortBit i.opcode, kptr := none,
           current := none }

/-- The state after an instruction that pops `pops` bytes from the active stack and then pushes `out` to it; nothing else
changes. -/
def State.ran (s : State) (i : Instr) (pops : Nat) (out : List Byte) : State :=
  (s.afterModes i).setStack i.act ((s.stack i.act).stored (pushBase i s pops) out)

/-- The state after a StackUnderflow of the active stack (60_exceptions R272, R274, R276): without k every byte of it is popped;
nothing is pushed. -/
def State.underflowed (s : State) (i : Instr) : State :=
  let left := if i.keep then (s.stack i.act).ptr else 0
  (s.setStack i.act { s.stack i.act with ptr := left }).endEvaluate
    (.error ⟨0x01, .stackUnderflow, i.act, i.opcode, s.pc - 1, left⟩)

/-- The state after a StackOverflow of stack `id`, while `out` is pushed to it from depth `base` (60_exceptions R272, R273, R276):
the bytes that fit are written, and the counter is 255. -/
def State.overflowed (s : State) (i : Instr) (id : StackId) (base : Nat) (out : List Byte) : State :=
  (s.setStack id ((s.stack id).stored base (out.take (255 - base)))).endEvaluate
    (.error ⟨0x02, .stackOverflow, id, i.opcode, s.pc - 1, 255⟩)

/-- What the rule of an instruction that pops `pops` bytes from its active stack, then pushes `out` to it, and then does `upd`,
says in every state: it completes when the operands are there and the results fit; it underflows when the operands are not
there; it overflows when the results do not fit. -/
def RunsAs (i : Instr) (s : State) (pops : Nat) (out : List Byte) (upd : State → State) : Prop :=
  (pops ≤ (s.stack i.act).ptr.toNat → pushBase i s pops + out.length ≤ 255 →
    exec i s = .next (upd (s.ran i pops out))) ∧
  ((s.stack i.act).ptr.toNat < pops → exec i s = .next (s.underflowed i)) ∧
  (pops ≤ (s.stack i.act).ptr.toNat → 255 < pushBase i s pops + out.length →
    exec i s = .next (s.overflowed i i.act (pushBase i s pops) out))

/-- What the rule of an instruction that pops `pops` bytes from its active stack and pushes nothing to it, and then does `upd`,
says in every state: it completes when the operands are there, and underflows when they are not. -/
def PopsAs (i : Instr) (s : State) (pops : Nat) (upd : State → State) : Prop :=
  (pops ≤ (s.stack i.act).ptr.toNat → exec i s = .next (upd (s.ran i pops []))) ∧
  ((s.stack i.act).ptr.toNat < pops → exec i s = .next (s.underflowed i))

/-- What the rule of an instruction that pops nothing and pushes `out` to its active stack, and then does `upd`, says in every
state: it completes when `out` fits, and overflows when it does not. -/
def PushesAs (i : Instr) (s : State) (out : List Byte) (upd : State → State) : Prop :=
  ((s.stack i.act).ptr.toNat + out.length ≤ 255 → exec i s = .next (upd (s.ran i 0 out))) ∧
  (255 < (s.stack i.act).ptr.toNat + out.length →
    exec i s = .next (s.overflowed i i.act (s.stack i.act).ptr.toNat out))

/-- What the rule of an instruction that pops `pops` bytes and then stores the value `v` of its width at RAM address `addr` says
in every state: it completes when the operands are there, with every byte of RAM as it was but those of the value (20_memory
R57) and nothing else changed; it underflows when they are not there. -/
def StoresAs (i : Instr) (s : State) (pops : Nat) (addr v : Word) : Prop :=
  (pops ≤ (s.stack i.act).ptr.toNat → ∃ m, exec i s = .next { s.ran i pops [] with ram := m } ∧ Memory.wf m = true ∧
    ∀ a : Word, Cells.read 0 m a.toNat =
      if i.short = true ∧ a = addr + 1 then lowByte v
      else if a = addr then (if i.short then highByte v else lowByte v)
      else s.ramByte a) ∧
  ((s.stack i.act).ptr.toNat < pops → exec i s = .next (s.underflowed i))

/-- `(pc + sext_16(d)) mod 2^16`, with `sext_16(d)` as 00_scope R17 gives it: d, or d + 0xFF00 from 0x80 on. -/
def displaced (pc : Word) (d : Byte) : Word :=
  BitVec.ofNat 16 (pc.toNat + (if d.toNat < 0x80 then d.toNat else d.toNat + 0xFF00))

/-- The target of a jump with popped value `t` (40_execution_cycle R125). -/
def jumpTarget (i : Instr) (s : State) (t : Word) : Word := if i.short then t else displaced s.pc (lowByte t)

/-- The bytes a load of the instruction's width finds at RAM address `a`, in the order they are pushed (20_memory R56, R58). -/
def loadedBytes (i : Instr) (s : State) (a : Word) : List Byte :=
  if i.short then [s.ramByte a, s.ramByte (a + 1)] else [s.ramByte a]

/-- One channel of a colour (45_device_bus R218). -/
def Rgb.channel (c : Rgb) (ch : Channel) : Byte :=
  match ch with
  | .red => c.r
  | .green => c.g
  | .blue => c.b

/-- The pixel class 0..3 at column h, row v of the tile at RAM address a (46_screen_blitter R241, R242). -/
def tileClass (s : State) (twoBpp : Bool) (a h v : Nat) : Nat :=
  ((s.ramByte (BitVec.ofNat 16 (a + v))).getLsbD (7 - h)).toNat +
    (if twoBpp then 2 * ((s.ramByte (BitVec.ofNat 16 (a + v + 8))).getLsbD (7 - h)).toNat else 0)

/-! ### The invariant -/

/-- A stack in canonical form, every data byte's index below 255 (10_state R21, R23). -/
abbrev Stack.Wf (st : Stack) : Prop := Cells.wf 0 st.dat = true ∧ Cells.below stackCapacity st.dat = true

/-- A layer holds only cells inside the live size (46_screen_blitter R237). -/
def Screen.covers {α : Type} (sc : Screen) (cells : Cells α) : Bool :=
  cells.all fun c => decide (c.1 % 65536 < sc.width.toNat) && decide (c.1 / 65536 < sc.height.toNat)

/-- Both layers are in canonical form and inside the live size (10_state R35, R36). -/
abbrev Screen.Wf (sc : Screen) : Prop :=
  Cells.wf .transparent sc.fg = true ∧ Cells.wf 0 sc.bg = true ∧ sc.covers sc.fg = true ∧ sc.covers sc.bg = true

/-- A channel of the form `n | (n << 4)` (10_state R39). -/
abbrev isDoubled (v : Byte) : Prop := v = expandNibble (v.extractLsb' 0 4)

/-- Each channel of a colour has the form of 10_state R39. -/
abbrev Rgb.Wf (c : Rgb) : Prop := isDoubled c.r ∧ isDoubled c.g ∧ isDoubled c.b

/-- Each colour of the palette has the form of 10_state R39. -/
abbrev Palette.Wf (p : Palette) : Prop := p.c0.Wf ∧ p.c1.Wf ∧ p.c2.Wf ∧ p.c3.Wf

/-- The transient state is at its defaults (40_execution_cycle R120). -/
abbrev State.AtDefaults (s : State) : Prop :=
  s.pc = 0 ∧ s.keep = false ∧ s.ret = false ∧ s.short = false ∧ s.kptr = none ∧ s.current = none ∧
    s.budget = s.cfg.budget

/-- While an evaluate runs, the machine is not halted (45_device_bus R220), no keep pointer is held between instructions (10_state
R29) and nothing is kept for records, the budget is between 1 and `BUDGET` (40_execution_cycle R118), and no load can be made (70_reset R310). -/
abbrev State.MidRun (s : State) : Prop :=
  s.halted = false ∧ s.kptr = none ∧ s.current = none ∧ 0 < s.budget ∧ s.budget ≤ s.cfg.budget ∧ s.loadOpen = false

/-- The machine's invariant, between two steps. -/
abbrev State.Inv (s : State) : Prop :=
  s.cfg.wellFormed = true ∧
  Memory.wf s.ram = true ∧
  Cells.wf 0 s.dev = true ∧ Cells.below portCount s.dev = true ∧
  s.wst.Wf ∧ s.rst.Wf ∧ s.screen.Wf ∧ s.palette.Wf ∧
  (s.running = true → s.MidRun) ∧ (s.running = false → s.AtDefaults)

end Machine
end Sys2Proof
end

