-- ==== Sys2Proof/Certificates/Slice0/Obligations.lean ====
section
/-! DEFINITION. The statements for the provers. Each docstring says what the statement claims; OBLIGATIONS.json holds the rules. -/

open Sys2Proof Sys2Proof.Machine

/-- For every well-formed instruction i with every immediate, and any bytes after it, decoding the encoding of i followed
by those bytes gives back i and those bytes. -/
def Obligations.DecodeOfEncodeIsTheInstruction : Prop :=
  ∀ (i : Instr) (rest : List Byte), i.wellFormed = true → decode (encode i ++ rest) = .ok (i, rest)

/-- If decoding a list of bytes answers instruction i and the remaining bytes, then the list is the encoding of i followed
by those remaining bytes: no bit is dropped. -/
def Obligations.EncodeOfDecodeIsTheBytes : Prop :=
  ∀ (bytes rest : List Byte) (i : Instr), decode bytes = .ok (i, rest) → bytes = encode i ++ rest

/-- For every three bytes the decoder answers an instruction whose opcode is the first byte, whose modes are bits 7, 6 and
5 of it, and whose encoding has the length of rule R100; it is BRK exactly for the byte 0x00. -/
def Obligations.DecodeIsTotalByModeBits : Prop :=
  ∀ b b1 b2 : Byte,
    (decodeBytes b b1 b2).opcode = b ∧
    (decodeBytes b b1 b2).keep = b.getLsbD 7 ∧
    (decodeBytes b b1 b2).act = (if b.getLsbD 6 then .r else .w) ∧
    (decodeBytes b b1 b2).short = b.getLsbD 5 ∧
    (encode (decodeBytes b b1 b2)).length = (if b ≠ 0 ∧ b.toNat % 32 = 0 then (if b.getLsbD 5 then 3 else 2) else 1) ∧
    (decodeBytes b b1 b2 = .brk ↔ b = 0)

/-- Words written out from the opcode map decode to the instructions they stand for: BRK, LIT 02, LIT2 1234, ADD2kr, DUP2,
JMP2r, INC, DEO2, STA, SFTk. -/
def Obligations.SampleWordsDecode : Prop :=
  decodeTableWord 8 0x00 = some .brk ∧ decodeTableWord 16 0x0280 = some (.lit 0x02) ∧
  decodeTableWord 24 0x341220 = some (.lit2 0x1234) ∧ decodeTableWord 8 0xF8 = some .add2kr ∧
  decodeTableWord 8 0x26 = some .dup2 ∧ decodeTableWord 8 0x6C = some .jmp2r ∧ decodeTableWord 8 0x01 = some .inc ∧
  decodeTableWord 8 0x37 = some .deo2 ∧ decodeTableWord 8 0x15 = some .sta ∧ decodeTableWord 8 0x9F = some .sftk

/-- While an evaluate runs, when the bytes at the program counter (mod 2^16) decode to a well-formed instruction i, the
step is exec of i at the state whose program counter is one further, followed by the halt test and the budget
(afterOutcome). -/
def Obligations.StepRunsTheDecodedInstruction : Prop :=
  ∀ (s : State) (i : Instr) (rest : List Byte), s.running = true → i.wellFormed = true →
    decode [s.ramByte s.pc, s.ramByte (s.pc + 1), s.ramByte (s.pc + 2)] = .ok (i, rest) →
    step s = afterOutcome (exec i { s with pc := s.pc + 1 })

/-- When no evaluate runs, a step leaves the state as it is. -/
def Obligations.StepDoesNothingBetweenEvaluates : Prop :=
  ∀ s : State, s.running = false → step s = .next s

/-- In every state the step answers a next state: no opcode byte, no operand and no fatal error stops the machine with a
fault or a refusal (a fatal error is an outcome of evaluate and so a next state, log 6). -/
def Obligations.StepAlwaysAnswersNext : Prop :=
  ∀ s : State, ∃ t, step s = .next t

/-- While an evaluate runs, if exec of the fetched instruction answers a state t that is still running, then the step ends
the evaluate with Halted(Port) from t when dev[0x0F] of t is nonzero, and goes on (counting the budget) when it is 0;
if the instruction ended the evaluate, the step adds nothing. -/
def Obligations.HaltPortEndsTheEvaluateAfterTheInstruction : Prop :=
  ∀ s t : State, s.running = true → exec (fetchInstr s) s.fetched = .next t →
    (t.running = true → t.devByte 0x0F ≠ 0 → step s = .next (t.endEvaluate .haltedPort)) ∧
    (t.running = true → t.devByte 0x0F = 0 → 1 < t.budget → step s = .next { t with budget := t.budget - 1 }) ∧
    (t.running = false → step s = .next t)

/-- While an evaluate runs, after an instruction that completes without halting, the budget is one less; when it reaches 0
the policy Continue refills it and the policy Abort ends the evaluate with Timeout. Nothing else changes. -/
def Obligations.BudgetIsCountedByPolicy : Prop :=
  ∀ s t : State, s.running = true → exec (fetchInstr s) s.fetched = .next t → t.running = true → t.devByte 0x0F = 0 →
    (1 < t.budget → step s = .next { t with budget := t.budget - 1 }) ∧
    (t.budget = 1 → t.cfg.budgetPolicy = .cont → step s = .next { t with budget := t.cfg.budget }) ∧
    (t.budget = 1 → t.cfg.budgetPolicy = .abort → step s = .next (t.endEvaluate .timeout))

/-- In every state exec of BRK answers the state with the transient fields at their defaults, outcome Halted(Brk) and no
evaluate running (a flag of the model, log 7); stacks, RAM, devices, screen, palette, streams and budget parameter are
unchanged. The byte of BRK is 0x00. -/
def Obligations.BrkEndsTheEvaluate : Prop :=
  Instr.opcode .brk = 0x00 ∧ ∀ s : State,
    exec .brk s = .next
      { s with pc := 0, keep := false, ret := false, short := false, kptr := none,
               current := none, budget := s.cfg.budget, outcome := some .haltedBrk, running := false }

/-- With no evaluate running: if v is 0 or dev[0x0F] is nonzero, evaluate(v) changes nothing but the outcome, which is
NoOp (so a load still open stays open: the choice of the model, log 10); otherwise the program counter is v, the
modes, keep pointer and budget take their defaults, and everything else is kept (loadOpen and running are fields of
the model, log 7 and log 10). -/
def Obligations.EvaluateEntersTheLoopOrIsANoOp : Prop :=
  ∀ (s : State) (v : Word), s.running = false →
    (v = 0 ∨ s.devByte 0x0F ≠ 0 → hostMove (.evaluate v) s = .next { s with outcome := some .noOp }) ∧
    (v ≠ 0 → s.devByte 0x0F = 0 →
      hostMove (.evaluate v) s = .next
        { s with pc := v, keep := false, ret := false, short := false, kptr := none,
                 current := none, budget := s.cfg.budget, running := true, loadOpen := false })

/-- If a step from a running state answers a state with no evaluate running, then in it the program counter, modes and
keep pointer are at their defaults, the budget is BUDGET, and the outcome is Halted(Brk), Halted(Port), Timeout or an
error record. -/
def Obligations.EveryEndResetsTheTransientState : Prop :=
  ∀ s t : State, s.running = true → step s = .next t → t.running = false →
    t.pc = 0 ∧ t.keep = false ∧ t.ret = false ∧ t.short = false ∧ t.kptr = none ∧ t.budget = t.cfg.budget ∧
    (t.outcome = some .haltedBrk ∨ t.outcome = some .haltedPort ∨ t.outcome = some .timeout ∨
      ∃ rec, t.outcome = some (.error rec))

/-- For every state that meets the invariant (RAM, device page, both stacks and both layers in canonical form and inside
their sizes, palette channels of the form n|(n<<4), and while an evaluate runs: not halted, no keep pointer held,
budget between 1 and BUDGET; otherwise the transient state at its defaults), a step leads to a state that meets it. -/
def Obligations.StepKeepsTheInvariant : Prop :=
  ∀ s t : State, s.Inv → step s = .next t → t.Inv

/-- The machine created with any configuration whose budget is at least 1 (log 3) meets the invariant, and so does
State.reset. -/
def Obligations.CreationMeetsTheInvariant : Prop :=
  (∀ cfg : Config, cfg.wellFormed = true → (State.create cfg).Inv) ∧ State.reset.Inv

/-- From every state that meets the invariant, creation, load, evaluate, present and the drains lead to states that meet
it. -/
def Obligations.HostTransactionsKeepTheInvariant : Prop :=
  ∀ (m : HostMove) (s t : State), s.Inv → hostMove m s = .next t → t.Inv

/-- A step leaves the configuration (budget, policy, initial size, blending table, address advance) as it is, in every
state. -/
def Obligations.StepKeepsTheConfiguration : Prop :=
  ∀ s t : State, step s = .next t → t.cfg = s.cfg

/-- After creation every RAM byte, stack byte and port is 0x00, both depths are 0, the transient state is at its defaults,
the screen has the parameter size with every fg cell T and every bg cell 0 and is not dirty, every palette channel is
0x00, and both streams are empty and the machine is not halted. -/
def Obligations.CreationLeavesTheResetValues : Prop :=
  ∀ cfg : Config,
    let s := State.create cfg
    State.reset = State.create Config.default ∧
    (∀ a, s.ramByte a = 0) ∧ (∀ n, s.wst.cell n = 0) ∧ s.wst.ptr = 0 ∧ (∀ n, s.rst.cell n = 0) ∧ s.rst.ptr = 0 ∧
    (∀ p, s.devByte p = 0) ∧ s.pc = 0 ∧ s.keep = false ∧ s.ret = false ∧ s.short = false ∧ s.kptr = none ∧
    s.budget = cfg.budget ∧ s.screen.width = cfg.screenW0 ∧ s.screen.height = cfg.screenH0 ∧
    (∀ x y, s.screen.fgAt x y = .transparent) ∧ (∀ x y, s.screen.bgAt x y = 0) ∧ s.screen.dirty = false ∧
    (∀ (c : Colour) (ch : Channel), (s.palette.colour c).channel ch = 0) ∧
    s.consoleOut = [] ∧ s.diagnostics = [] ∧ s.halted = false ∧
    Config.default.budget = 0x40000 ∧ Config.default.screenW0 = 0 ∧ Config.default.screenH0 = 0

/-- For the seven LIT forms: the instruction fetched at a LIT opcode carries the byte or the big-endian short after it;
exec pushes it on the active stack with the program counter moved past it, or overflows when it does not fit. In each
case every other part of the state (the other stack, RAM, the device page, screen, palette, streams, outcome, program
counter) is as before but the transient mode fields; a fatal error ends the evaluate with its record. -/
def Obligations.LitPushesItsImmediate : Prop :=
  (∀ s : State,
    (s.ramByte s.pc = 0x20 → fetchInstr s = .lit2 (shortOf (s.ramByte (s.pc + 1)) (s.ramByte (s.pc + 2)))) ∧
    (s.ramByte s.pc = 0x40 → fetchInstr s = .litr (s.ramByte (s.pc + 1))) ∧
    (s.ramByte s.pc = 0x60 → fetchInstr s = .lit2r (shortOf (s.ramByte (s.pc + 1)) (s.ramByte (s.pc + 2)))) ∧
    (s.ramByte s.pc = 0x80 → fetchInstr s = .lit (s.ramByte (s.pc + 1))) ∧
    (s.ramByte s.pc = 0xA0 → fetchInstr s = .lit2k (shortOf (s.ramByte (s.pc + 1)) (s.ramByte (s.pc + 2)))) ∧
    (s.ramByte s.pc = 0xC0 → fetchInstr s = .litkr (s.ramByte (s.pc + 1))) ∧
    (s.ramByte s.pc = 0xE0 → fetchInstr s = .lit2kr (shortOf (s.ramByte (s.pc + 1)) (s.ramByte (s.pc + 2))))) ∧
  (∀ (v : Byte), ∀ i ∈ ([.litr v, .lit v, .litkr v] : List Instr), ∀ s : State,
    PushesAs i s [v] (fun t => { t with pc := s.pc + 1 })) ∧
  (∀ (v : Word), ∀ i ∈ ([.lit2 v, .lit2r v, .lit2k v, .lit2kr v] : List Instr), ∀ s : State,
    PushesAs i s [highByte v, lowByte v] (fun t => { t with pc := s.pc + 2 }))

/-- For the eight INC forms: a is popped and (a + 1) mod 2^w pushed; underflow and overflow as the rule says. In each case
every other part of the state (the other stack, RAM, the device page, screen, palette, streams, outcome, program
counter) is as before but the transient mode fields; a fatal error ends the evaluate with its record. -/
def Obligations.IncAddsOneModWidth : Prop :=
  ([.inc, .inc2, .incr, .inc2r, .inck, .inc2k, .inckr, .inc2kr] : List Instr).map Instr.opcode = [0x01, 0x21, 0x41, 0x61, 0x81, 0xA1, 0xC1, 0xE1] ∧
  ∀ i ∈ ([.inc, .inc2, .incr, .inc2r, .inck, .inc2k, .inckr, .inc2kr] : List Instr), ∀ s : State,
    let st := s.stack i.act
    let d := st.ptr.toNat
    let a := st.item i.short d
    RunsAs i s (i.size) (itemBytes i.short (BitVec.ofNat 16 ((a.toNat + 1) % i.modulus))) id

/-- For the eight POP forms: one item is popped and nothing pushed; with too few bytes it underflows, in keep mode too. In
each case every other part of the state (the other stack, RAM, the device page, screen, palette, streams, outcome,
program counter) is as before but the transient mode fields; a fatal error ends the evaluate with its record. -/
def Obligations.PopDiscardsTheTopItem : Prop :=
  ([.pop, .pop2, .popr, .pop2r, .popk, .pop2k, .popkr, .pop2kr] : List Instr).map Instr.opcode = [0x02, 0x22, 0x42, 0x62, 0x82, 0xA2, 0xC2, 0xE2] ∧
  ∀ i ∈ ([.pop, .pop2, .popr, .pop2r, .popk, .pop2k, .popkr, .pop2kr] : List Instr), ∀ s : State,
    PopsAs i s (i.size) id

/-- For the eight NIP forms: a and b are popped and a pushed; underflow and overflow as the rule says. In each case every
other part of the state (the other stack, RAM, the device page, screen, palette, streams, outcome, program counter) is
as before but the transient mode fields; a fatal error ends the evaluate with its record. -/
def Obligations.NipRemovesTheSecondItem : Prop :=
  ([.nip, .nip2, .nipr, .nip2r, .nipk, .nip2k, .nipkr, .nip2kr] : List Instr).map Instr.opcode = [0x03, 0x23, 0x43, 0x63, 0x83, 0xA3, 0xC3, 0xE3] ∧
  ∀ i ∈ ([.nip, .nip2, .nipr, .nip2r, .nipk, .nip2k, .nipkr, .nip2kr] : List Instr), ∀ s : State,
    let st := s.stack i.act
    let d := st.ptr.toNat
    let a := st.item i.short d
    RunsAs i s (2 * i.size) (itemBytes i.short a) id

/-- For the eight SWP forms: a and b are popped, then a and b pushed; underflow and overflow as the rule says. In each
case every other part of the state (the other stack, RAM, the device page, screen, palette, streams, outcome, program
counter) is as before but the transient mode fields; a fatal error ends the evaluate with its record. -/
def Obligations.SwpSwapsTheTopTwoItems : Prop :=
  ([.swp, .swp2, .swpr, .swp2r, .swpk, .swp2k, .swpkr, .swp2kr] : List Instr).map Instr.opcode = [0x04, 0x24, 0x44, 0x64, 0x84, 0xA4, 0xC4, 0xE4] ∧
  ∀ i ∈ ([.swp, .swp2, .swpr, .swp2r, .swpk, .swp2k, .swpkr, .swp2kr] : List Instr), ∀ s : State,
    let st := s.stack i.act
    let d := st.ptr.toNat
    let a := st.item i.short d
    let b := st.item i.short (d - i.size)
    RunsAs i s (2 * i.size) (itemBytes i.short a ++ itemBytes i.short b) id

/-- For the eight ROT forms: a, b and c are popped, then b, a and c pushed; underflow and overflow as the rule says. In
each case every other part of the state (the other stack, RAM, the device page, screen, palette, streams, outcome,
program counter) is as before but the transient mode fields; a fatal error ends the evaluate with its record. -/
def Obligations.RotMovesTheThirdItemToTheTop : Prop :=
  ([.rot, .rot2, .rotr, .rot2r, .rotk, .rot2k, .rotkr, .rot2kr] : List Instr).map Instr.opcode = [0x05, 0x25, 0x45, 0x65, 0x85, 0xA5, 0xC5, 0xE5] ∧
  ∀ i ∈ ([.rot, .rot2, .rotr, .rot2r, .rotk, .rot2k, .rotkr, .rot2kr] : List Instr), ∀ s : State,
    let st := s.stack i.act
    let d := st.ptr.toNat
    let a := st.item i.short d
    let b := st.item i.short (d - i.size)
    let c := st.item i.short (d - 2 * i.size)
    RunsAs i s (3 * i.size) (itemBytes i.short b ++ itemBytes i.short a ++ itemBytes i.short c) id

/-- For the eight DUP forms: a is popped and pushed twice; underflow and overflow as the rule says. In each case every
other part of the state (the other stack, RAM, the device page, screen, palette, streams, outcome, program counter) is
as before but the transient mode fields; a fatal error ends the evaluate with its record. -/
def Obligations.DupDuplicatesTheTopItem : Prop :=
  ([.dup, .dup2, .dupr, .dup2r, .dupk, .dup2k, .dupkr, .dup2kr] : List Instr).map Instr.opcode = [0x06, 0x26, 0x46, 0x66, 0x86, 0xA6, 0xC6, 0xE6] ∧
  ∀ i ∈ ([.dup, .dup2, .dupr, .dup2r, .dupk, .dup2k, .dupkr, .dup2kr] : List Instr), ∀ s : State,
    let st := s.stack i.act
    let d := st.ptr.toNat
    let a := st.item i.short d
    RunsAs i s (i.size) (itemBytes i.short a ++ itemBytes i.short a) id

/-- For the eight OVR forms: a and b are popped, then b, a and b pushed; underflow and overflow as the rule says. In each
case every other part of the state (the other stack, RAM, the device page, screen, palette, streams, outcome, program
counter) is as before but the transient mode fields; a fatal error ends the evaluate with its record. -/
def Obligations.OvrCopiesTheSecondItemOver : Prop :=
  ([.ovr, .ovr2, .ovrr, .ovr2r, .ovrk, .ovr2k, .ovrkr, .ovr2kr] : List Instr).map Instr.opcode = [0x07, 0x27, 0x47, 0x67, 0x87, 0xA7, 0xC7, 0xE7] ∧
  ∀ i ∈ ([.ovr, .ovr2, .ovrr, .ovr2r, .ovrk, .ovr2k, .ovrkr, .ovr2kr] : List Instr), ∀ s : State,
    let st := s.stack i.act
    let d := st.ptr.toNat
    let a := st.item i.short d
    let b := st.item i.short (d - i.size)
    RunsAs i s (2 * i.size) (itemBytes i.short b ++ itemBytes i.short a ++ itemBytes i.short b) id

/-- For the eight EQU and the eight NEQ forms: a and b are popped and one byte pushed, 1 exactly when b = a (EQU) or b
differs from a (NEQ), whatever the width; underflow and overflow as the rules say. In each case every other part of
the state (the other stack, RAM, the device page, screen, palette, streams, outcome, program counter) is as before but
the transient mode fields; a fatal error ends the evaluate with its record. -/
def Obligations.EquNeqPushOneByte : Prop :=
  (([.equ, .equ2, .equr, .equ2r, .equk, .equ2k, .equkr, .equ2kr] : List Instr).map Instr.opcode = [0x08, 0x28, 0x48, 0x68, 0x88, 0xA8, 0xC8, 0xE8] ∧
  ∀ i ∈ ([.equ, .equ2, .equr, .equ2r, .equk, .equ2k, .equkr, .equ2kr] : List Instr), ∀ s : State,
    let st := s.stack i.act
    let d := st.ptr.toNat
    let a := st.item i.short d
    let b := st.item i.short (d - i.size)
    RunsAs i s (2 * i.size) [if b = a then 0x01 else 0x00] id) ∧
  (([.neq, .neq2, .neqr, .neq2r, .neqk, .neq2k, .neqkr, .neq2kr] : List Instr).map Instr.opcode = [0x09, 0x29, 0x49, 0x69, 0x89, 0xA9, 0xC9, 0xE9] ∧
  ∀ i ∈ ([.neq, .neq2, .neqr, .neq2r, .neqk, .neq2k, .neqkr, .neq2kr] : List Instr), ∀ s : State,
    let st := s.stack i.act
    let d := st.ptr.toNat
    let a := st.item i.short d
    let b := st.item i.short (d - i.size)
    RunsAs i s (2 * i.size) [if b = a then 0x00 else 0x01] id)

/-- For the eight GTH and the eight LTH forms: a and b are popped and one byte pushed, 1 exactly when b > a (GTH) or b < a
(LTH) as unsigned numbers; underflow and overflow as the rules say. In each case every other part of the state (the
other stack, RAM, the device page, screen, palette, streams, outcome, program counter) is as before but the transient
mode fields; a fatal error ends the evaluate with its record. -/
def Obligations.GthLthCompareUnsigned : Prop :=
  (([.gth, .gth2, .gthr, .gth2r, .gthk, .gth2k, .gthkr, .gth2kr] : List Instr).map Instr.opcode = [0x0A, 0x2A, 0x4A, 0x6A, 0x8A, 0xAA, 0xCA, 0xEA] ∧
  ∀ i ∈ ([.gth, .gth2, .gthr, .gth2r, .gthk, .gth2k, .gthkr, .gth2kr] : List Instr), ∀ s : State,
    let st := s.stack i.act
    let d := st.ptr.toNat
    let a := st.item i.short d
    let b := st.item i.short (d - i.size)
    RunsAs i s (2 * i.size) [if a.toNat < b.toNat then 0x01 else 0x00] id) ∧
  (([.lth, .lth2, .lthr, .lth2r, .lthk, .lth2k, .lthkr, .lth2kr] : List Instr).map Instr.opcode = [0x0B, 0x2B, 0x4B, 0x6B, 0x8B, 0xAB, 0xCB, 0xEB] ∧
  ∀ i ∈ ([.lth, .lth2, .lthr, .lth2r, .lthk, .lth2k, .lthkr, .lth2kr] : List Instr), ∀ s : State,
    let st := s.stack i.act
    let d := st.ptr.toNat
    let a := st.item i.short d
    let b := st.item i.short (d - i.size)
    RunsAs i s (2 * i.size) [if b.toNat < a.toNat then 0x01 else 0x00] id)

/-- For the eight JMP forms: the target is popped; the program counter becomes it in short mode, and the program counter
plus the signed byte, mod 2^16, in byte mode; with too few bytes it underflows. In each case every other part of the
state (the other stack, RAM, the device page, screen, palette, streams, outcome) is as before but the transient mode
fields; a fatal error ends the evaluate with its record. -/
def Obligations.JmpGoesToTheResolvedTarget : Prop :=
  ([.jmp, .jmp2, .jmpr, .jmp2r, .jmpk, .jmp2k, .jmpkr, .jmp2kr] : List Instr).map Instr.opcode = [0x0C, 0x2C, 0x4C, 0x6C, 0x8C, 0xAC, 0xCC, 0xEC] ∧
  ∀ i ∈ ([.jmp, .jmp2, .jmpr, .jmp2r, .jmpk, .jmp2k, .jmpkr, .jmp2kr] : List Instr), ∀ s : State,
    let st := s.stack i.act
    let d := st.ptr.toNat
    let t := st.item i.short d
    PopsAs i s (i.size) (fun u => { u with pc := jumpTarget i s t })

/-- For the eight JCN forms: the target and then the condition byte are popped; the program counter goes to the resolved
target when the condition is nonzero and stays otherwise; with too few bytes it underflows. In each case every other
part of the state (the other stack, RAM, the device page, screen, palette, streams, outcome) is as before but the
transient mode fields; a fatal error ends the evaluate with its record. -/
def Obligations.JcnJumpsOnANonzeroByte : Prop :=
  ([.jcn, .jcn2, .jcnr, .jcn2r, .jcnk, .jcn2k, .jcnkr, .jcn2kr] : List Instr).map Instr.opcode = [0x0D, 0x2D, 0x4D, 0x6D, 0x8D, 0xAD, 0xCD, 0xED] ∧
  ∀ i ∈ ([.jcn, .jcn2, .jcnr, .jcn2r, .jcnk, .jcn2k, .jcnkr, .jcn2kr] : List Instr), ∀ s : State,
    let st := s.stack i.act
    let d := st.ptr.toNat
    let t := st.item i.short d
    let c := st.cell (d - i.size - 1)
    PopsAs i s (i.size + 1) (fun u => if c = 0 then u else { u with pc := jumpTarget i s t })

/-- For the eight JSR forms: the program counter is pushed as a short on the stack that is not active, first; with no room
for it the other stack overflows and the target is not popped; then the target is popped, underflowing with the stash
done when it is not there; then the program counter goes to the resolved target. In each case every other part of the
state (RAM, the device page, screen, palette, streams, outcome) is as before but the transient mode fields; a fatal
error ends the evaluate with its record. -/
def Obligations.JsrStashesThePcAndJumps : Prop :=
  ([.jsr, .jsr2, .jsrr, .jsr2r, .jsrk, .jsr2k, .jsrkr, .jsr2kr] : List Instr).map Instr.opcode = [0x0E, 0x2E, 0x4E, 0x6E, 0x8E, 0xAE, 0xCE, 0xEE] ∧
  ∀ i ∈ ([.jsr, .jsr2, .jsrr, .jsr2r, .jsrk, .jsr2k, .jsrkr, .jsr2kr] : List Instr), ∀ s : State,
    let st := s.stack i.act
    let d := st.ptr.toNat
    let ot := s.stack i.oth
    let back := [highByte s.pc, lowByte s.pc]
    let t := st.item i.short d
    (255 < ot.ptr.toNat + 2 → exec i s = .next (s.overflowed i i.oth ot.ptr.toNat back)) ∧
    (ot.ptr.toNat + 2 ≤ 255 → d < i.size →
      exec i s = .next ((s.setStack i.oth (ot.stored ot.ptr.toNat back)).underflowed i)) ∧
    (ot.ptr.toNat + 2 ≤ 255 → i.size ≤ d →
      exec i s = .next { (s.ran i i.size []).setStack i.oth (ot.stored ot.ptr.toNat back) with pc := jumpTarget i s t })

/-- For the eight STH forms: a is popped from the active stack and pushed on the other, as its bytes in order; the active
stack underflows first; then the other overflows, with the pop done. In each case every other part of the state (RAM,
the device page, screen, palette, streams, outcome, program counter) is as before but the transient mode fields; a
fatal error ends the evaluate with its record. -/
def Obligations.SthMovesAnItemToTheOtherStack : Prop :=
  ([.sth, .sth2, .sthr, .sth2r, .sthk, .sth2k, .sthkr, .sth2kr] : List Instr).map Instr.opcode = [0x0F, 0x2F, 0x4F, 0x6F, 0x8F, 0xAF, 0xCF, 0xEF] ∧
  ∀ i ∈ ([.sth, .sth2, .sthr, .sth2r, .sthk, .sth2k, .sthkr, .sth2kr] : List Instr), ∀ s : State,
    let st := s.stack i.act
    let d := st.ptr.toNat
    let ot := s.stack i.oth
    let bytes := itemBytes i.short (st.item i.short d)
    (d < i.size → exec i s = .next (s.underflowed i)) ∧
    (i.size ≤ d → ot.ptr.toNat + i.size ≤ 255 →
      exec i s = .next ((s.ran i i.size []).setStack i.oth (ot.stored ot.ptr.toNat bytes))) ∧
    (i.size ≤ d → 255 < ot.ptr.toNat + i.size →
      exec i s = .next ((s.setStack i.act (st.stored (pushBase i s i.size) [])).overflowed i i.oth ot.ptr.toNat bytes))

/-- For the eight LDZ forms: an address byte is popped and the byte, or in short mode the big-endian short whose second
byte is at the 16-bit address plus one, is pushed; RAM is unchanged; underflow and overflow as the rule says. In each
case every other part of the state (the other stack, RAM, the device page, screen, palette, streams, outcome, program
counter) is as before but the transient mode fields; a fatal error ends the evaluate with its record. -/
def Obligations.LdzLoadsFromTheZeroPage : Prop :=
  ([.ldz, .ldz2, .ldzr, .ldz2r, .ldzk, .ldz2k, .ldzkr, .ldz2kr] : List Instr).map Instr.opcode = [0x10, 0x30, 0x50, 0x70, 0x90, 0xB0, 0xD0, 0xF0] ∧
  ∀ i ∈ ([.ldz, .ldz2, .ldzr, .ldz2r, .ldzk, .ldz2k, .ldzkr, .ldz2kr] : List Instr), ∀ s : State,
    let st := s.stack i.act
    let d := st.ptr.toNat
    let a := zext16 (st.cell (d - 1))
    RunsAs i s (1) (loadedBytes i s a) id

/-- For the eight STZ forms, with RAM in canonical form: the address byte, then the value is popped; the value is stored
big-endian at the 16-bit address, and with too few bytes it underflows and stores nothing. Every other byte of RAM,
and every other part of the state but the transient mode fields, is as before. -/
def Obligations.StzStoresToTheZeroPage : Prop :=
  ([.stz, .stz2, .stzr, .stz2r, .stzk, .stz2k, .stzkr, .stz2kr] : List Instr).map Instr.opcode = [0x11, 0x31, 0x51, 0x71, 0x91, 0xB1, 0xD1, 0xF1] ∧
  ∀ i ∈ ([.stz, .stz2, .stzr, .stz2r, .stzk, .stz2k, .stzkr, .stz2kr] : List Instr), ∀ s : State, Memory.wf s.ram = true →
    let st := s.stack i.act
    let d := st.ptr.toNat
    let addr := zext16 (st.cell (d - 1))
    let v := st.item i.short (d - 1)
    StoresAs i s (1 + i.size) addr v

/-- For the eight LDR forms: a signed displacement byte is popped and the byte or big-endian short at the program counter
plus it, mod 2^16, is pushed; underflow and overflow as the rule says. In each case every other part of the state (the
other stack, RAM, the device page, screen, palette, streams, outcome, program counter) is as before but the transient
mode fields; a fatal error ends the evaluate with its record. -/
def Obligations.LdrLoadsRelativeToThePc : Prop :=
  ([.ldr, .ldr2, .ldrr, .ldr2r, .ldrk, .ldr2k, .ldrkr, .ldr2kr] : List Instr).map Instr.opcode = [0x12, 0x32, 0x52, 0x72, 0x92, 0xB2, 0xD2, 0xF2] ∧
  ∀ i ∈ ([.ldr, .ldr2, .ldrr, .ldr2r, .ldrk, .ldr2k, .ldrkr, .ldr2kr] : List Instr), ∀ s : State,
    let st := s.stack i.act
    let d := st.ptr.toNat
    let a := displaced s.pc (st.cell (d - 1))
    RunsAs i s (1) (loadedBytes i s a) id

/-- For the eight STR forms, with RAM in canonical form: the displacement byte, then the value is popped; the value is
stored big-endian at the program counter plus the signed displacement, mod 2^16; with too few bytes it underflows and
stores nothing. Every other byte of RAM, and every other part of the state but the transient mode fields, is as
before. -/
def Obligations.StrStoresRelativeToThePc : Prop :=
  ([.str, .str2, .strr, .str2r, .strk, .str2k, .strkr, .str2kr] : List Instr).map Instr.opcode = [0x13, 0x33, 0x53, 0x73, 0x93, 0xB3, 0xD3, 0xF3] ∧
  ∀ i ∈ ([.str, .str2, .strr, .str2r, .strk, .str2k, .strkr, .str2kr] : List Instr), ∀ s : State, Memory.wf s.ram = true →
    let st := s.stack i.act
    let d := st.ptr.toNat
    let addr := s.relative (st.cell (d - 1))
    let v := st.item i.short (d - 1)
    StoresAs i s (1 + i.size) addr v

/-- For the eight LDA forms: a 16-bit address is popped in either mode and the byte or big-endian short there is pushed,
the second address taken mod 2^16; underflow and overflow as the rule says. In each case every other part of the state
(the other stack, RAM, the device page, screen, palette, streams, outcome, program counter) is as before but the
transient mode fields; a fatal error ends the evaluate with its record. -/
def Obligations.LdaLoadsAbsolute : Prop :=
  ([.lda, .lda2, .ldar, .lda2r, .ldak, .lda2k, .ldakr, .lda2kr] : List Instr).map Instr.opcode = [0x14, 0x34, 0x54, 0x74, 0x94, 0xB4, 0xD4, 0xF4] ∧
  ∀ i ∈ ([.lda, .lda2, .ldar, .lda2r, .ldak, .lda2k, .ldakr, .lda2kr] : List Instr), ∀ s : State,
    let st := s.stack i.act
    let d := st.ptr.toNat
    let a := st.item true d
    RunsAs i s (2) (loadedBytes i s a) id

/-- For the eight STA forms, with RAM in canonical form: the 16-bit address, then the value is popped; the value is stored
big-endian there, the second address mod 2^16; with too few bytes it underflows and stores nothing. Every other byte
of RAM, and every other part of the state but the transient mode fields, is as before. -/
def Obligations.StaStoresAbsolute : Prop :=
  ([.sta, .sta2, .star, .sta2r, .stak, .sta2k, .stakr, .sta2kr] : List Instr).map Instr.opcode = [0x15, 0x35, 0x55, 0x75, 0x95, 0xB5, 0xD5, 0xF5] ∧
  ∀ i ∈ ([.sta, .sta2, .star, .sta2r, .stak, .sta2k, .stakr, .sta2kr] : List Instr), ∀ s : State, Memory.wf s.ram = true →
    let st := s.stack i.act
    let d := st.ptr.toNat
    let addr := st.item true d
    let v := st.item i.short (d - 2)
    StoresAs i s (2 + i.size) addr v

/-- For the eight DEI forms: a port byte is popped and dev[p], or in short mode dev[p] and dev[p+1 mod 256], is pushed;
the device page, the streams and the screen are unchanged; underflow and overflow as the rule says. In each case every
other part of the state (the other stack, RAM, the device page, screen, palette, streams, outcome, program counter) is
as before but the transient mode fields; a fatal error ends the evaluate with its record. -/
def Obligations.DeiReadsThePortPlainly : Prop :=
  ([.dei, .dei2, .deir, .dei2r, .deik, .dei2k, .deikr, .dei2kr] : List Instr).map Instr.opcode = [0x16, 0x36, 0x56, 0x76, 0x96, 0xB6, 0xD6, 0xF6] ∧
  ∀ i ∈ ([.dei, .dei2, .deir, .dei2r, .deik, .dei2k, .deikr, .dei2kr] : List Instr), ∀ s : State,
    let st := s.stack i.act
    let d := st.ptr.toNat
    let p := st.cell (d - 1)
    RunsAs i s (1) (if i.short then [s.devByte p, s.devByte (p + 1)] else [s.devByte p]) id

/-- For the eight DEO forms: the port byte, then the value is popped; then the value is written to the device bus
(devWrite: each byte stored and handled, the high byte first), with the opcode and its address at hand for
diagnostics; with too few bytes it underflows and writes nothing. -/
def Obligations.DeoWritesThePort : Prop :=
  ([.deo, .deo2, .deor, .deo2r, .deok, .deo2k, .deokr, .deo2kr] : List Instr).map Instr.opcode = [0x17, 0x37, 0x57, 0x77, 0x97, 0xB7, 0xD7, 0xF7] ∧
  ∀ i ∈ ([.deo, .deo2, .deor, .deo2r, .deok, .deo2k, .deokr, .deo2kr] : List Instr), ∀ s : State,
    let st := s.stack i.act
    let d := st.ptr.toNat
    let p := st.cell (d - 1)
    let v := st.item i.short (d - 1)
    PopsAs i s (1 + i.size) (fun u => { devWrite i.short p v { u with current := some ⟨i.opcode, s.pc - 1⟩ } with current := none })

/-- For the eight ADD forms: a and b are popped and (b + a) mod 2^w pushed; underflow and overflow as the rule says. In
each case every other part of the state (the other stack, RAM, the device page, screen, palette, streams, outcome,
program counter) is as before but the transient mode fields; a fatal error ends the evaluate with its record. -/
def Obligations.AddWrapsModWidth : Prop :=
  ([.add, .add2, .addr, .add2r, .addk, .add2k, .addkr, .add2kr] : List Instr).map Instr.opcode = [0x18, 0x38, 0x58, 0x78, 0x98, 0xB8, 0xD8, 0xF8] ∧
  ∀ i ∈ ([.add, .add2, .addr, .add2r, .addk, .add2k, .addkr, .add2kr] : List Instr), ∀ s : State,
    let st := s.stack i.act
    let d := st.ptr.toNat
    let a := st.item i.short d
    let b := st.item i.short (d - i.size)
    RunsAs i s (2 * i.size) (itemBytes i.short (BitVec.ofNat 16 ((b.toNat + a.toNat) % i.modulus))) id

/-- For the eight SUB forms: a and b are popped and (b - a) mod 2^w pushed; underflow and overflow as the rule says. In
each case every other part of the state (the other stack, RAM, the device page, screen, palette, streams, outcome,
program counter) is as before but the transient mode fields; a fatal error ends the evaluate with its record. -/
def Obligations.SubSubtractsTheTopItem : Prop :=
  ([.sub, .sub2, .subr, .sub2r, .subk, .sub2k, .subkr, .sub2kr] : List Instr).map Instr.opcode = [0x19, 0x39, 0x59, 0x79, 0x99, 0xB9, 0xD9, 0xF9] ∧
  ∀ i ∈ ([.sub, .sub2, .subr, .sub2r, .subk, .sub2k, .subkr, .sub2kr] : List Instr), ∀ s : State,
    let st := s.stack i.act
    let d := st.ptr.toNat
    let a := st.item i.short d
    let b := st.item i.short (d - i.size)
    RunsAs i s (2 * i.size) (itemBytes i.short (BitVec.ofNat 16 ((b.toNat + i.modulus - a.toNat) % i.modulus))) id

/-- For the eight MUL forms: a and b are popped and (b * a) mod 2^w pushed; underflow and overflow as the rule says. In
each case every other part of the state (the other stack, RAM, the device page, screen, palette, streams, outcome,
program counter) is as before but the transient mode fields; a fatal error ends the evaluate with its record. -/
def Obligations.MulKeepsTheLowBits : Prop :=
  ([.mul, .mul2, .mulr, .mul2r, .mulk, .mul2k, .mulkr, .mul2kr] : List Instr).map Instr.opcode = [0x1A, 0x3A, 0x5A, 0x7A, 0x9A, 0xBA, 0xDA, 0xFA] ∧
  ∀ i ∈ ([.mul, .mul2, .mulr, .mul2r, .mulk, .mul2k, .mulkr, .mul2kr] : List Instr), ∀ s : State,
    let st := s.stack i.act
    let d := st.ptr.toNat
    let a := st.item i.short d
    let b := st.item i.short (d - i.size)
    RunsAs i s (2 * i.size) (itemBytes i.short (BitVec.ofNat 16 (b.toNat * a.toNat % i.modulus))) id

/-- For the eight DIV forms: with too few bytes it underflows; else with a zero divisor the evaluate ends with
DivisionByZero, both operands popped unless kept; else the truncated unsigned quotient is pushed, or it overflows. In
each case every other part of the state (the other stack, RAM, the device page, screen, palette, streams, outcome,
program counter) is as before but the transient mode fields; a fatal error ends the evaluate with its record. -/
def Obligations.DivDividesUnsignedOrTraps : Prop :=
  ([.div, .div2, .divr, .div2r, .divk, .div2k, .divkr, .div2kr] : List Instr).map Instr.opcode = [0x1B, 0x3B, 0x5B, 0x7B, 0x9B, 0xBB, 0xDB, 0xFB] ∧
  ∀ i ∈ ([.div, .div2, .divr, .div2r, .divk, .div2k, .divkr, .div2kr] : List Instr), ∀ s : State,
    let st := s.stack i.act
    let d := st.ptr.toNat
    let a := st.item i.short d
    let b := st.item i.short (d - i.size)
    let left := BitVec.ofNat 8 (pushBase i s (2 * i.size))
    (d < 2 * i.size → exec i s = .next (s.underflowed i)) ∧
    (2 * i.size ≤ d → a = 0 →
      exec i s = .next ((s.setStack i.act { st with ptr := left }).endEvaluate
        (.error ⟨0x03, .divisionByZero, i.act, i.opcode, s.pc - 1, left⟩))) ∧
    (a ≠ 0 → RunsAs i s (2 * i.size) (itemBytes i.short (BitVec.ofNat 16 (b.toNat / a.toNat))) id)

/-- For the eight forms each of AND, ORA and EOR: a and b are popped and the bitwise and, or, exclusive or of them is
pushed; underflow and overflow as the rules say. In each case every other part of the state (the other stack, RAM, the
device page, screen, palette, streams, outcome, program counter) is as before but the transient mode fields; a fatal
error ends the evaluate with its record. -/
def Obligations.AndOraEorAreBitwise : Prop :=
  (([.and, .and2, .andr, .and2r, .andk, .and2k, .andkr, .and2kr] : List Instr).map Instr.opcode = [0x1C, 0x3C, 0x5C, 0x7C, 0x9C, 0xBC, 0xDC, 0xFC] ∧
  ∀ i ∈ ([.and, .and2, .andr, .and2r, .andk, .and2k, .andkr, .and2kr] : List Instr), ∀ s : State,
    let st := s.stack i.act
    let d := st.ptr.toNat
    let a := st.item i.short d
    let b := st.item i.short (d - i.size)
    RunsAs i s (2 * i.size) (itemBytes i.short (b &&& a)) id) ∧
  (([.ora, .ora2, .orar, .ora2r, .orak, .ora2k, .orakr, .ora2kr] : List Instr).map Instr.opcode = [0x1D, 0x3D, 0x5D, 0x7D, 0x9D, 0xBD, 0xDD, 0xFD] ∧
  ∀ i ∈ ([.ora, .ora2, .orar, .ora2r, .orak, .ora2k, .orakr, .ora2kr] : List Instr), ∀ s : State,
    let st := s.stack i.act
    let d := st.ptr.toNat
    let a := st.item i.short d
    let b := st.item i.short (d - i.size)
    RunsAs i s (2 * i.size) (itemBytes i.short (b ||| a)) id) ∧
  (([.eor, .eor2, .eorr, .eor2r, .eork, .eor2k, .eorkr, .eor2kr] : List Instr).map Instr.opcode = [0x1E, 0x3E, 0x5E, 0x7E, 0x9E, 0xBE, 0xDE, 0xFE] ∧
  ∀ i ∈ ([.eor, .eor2, .eorr, .eor2r, .eork, .eor2k, .eorkr, .eor2kr] : List Instr), ∀ s : State,
    let st := s.stack i.act
    let d := st.ptr.toNat
    let a := st.item i.short d
    let b := st.item i.short (d - i.size)
    RunsAs i s (2 * i.size) (itemBytes i.short (b ^^^ a)) id)

/-- For the eight SFT forms: the shift byte, then b is popped; b is shifted right (logical) by the low nibble, then left
by the high nibble, mod 2^w, and pushed; underflow and overflow as the rule says. In each case every other part of the
state (the other stack, RAM, the device page, screen, palette, streams, outcome, program counter) is as before but the
transient mode fields; a fatal error ends the evaluate with its record. -/
def Obligations.SftShiftsRightThenLeft : Prop :=
  ([.sft, .sft2, .sftr, .sft2r, .sftk, .sft2k, .sftkr, .sft2kr] : List Instr).map Instr.opcode = [0x1F, 0x3F, 0x5F, 0x7F, 0x9F, 0xBF, 0xDF, 0xFF] ∧
  ∀ i ∈ ([.sft, .sft2, .sftr, .sft2r, .sftk, .sft2k, .sftkr, .sft2kr] : List Instr), ∀ s : State,
    let st := s.stack i.act
    let d := st.ptr.toNat
    let sh := st.cell (d - 1)
    let b := st.item i.short (d - 1)
    RunsAs i s (1 + i.size) (itemBytes i.short (BitVec.ofNat 16 (b.toNat / 2 ^ (sh.toNat % 16) * 2 ^ (sh.toNat / 16) % i.modulus))) id

/-- A one-byte device write is the owning handler run on the page with the byte stored; a two-byte write is the high byte
written to p and then the low byte to p + 1 mod 256; each such byte is handled by its slot: System 0, Console 1,
Screen 2, and for slots 3 to 15 the diagnostic. Storing a byte changes nothing but the device page; with the page in
canonical form the port then reads the byte and every other port reads as before. -/
def Obligations.DeviceWriteStoresThenHandles : Prop :=
  ∀ (s : State) (p v : Byte) (w : Word),
    devWrite false p w s = devWriteByte p (lowByte w) s ∧
    devWrite true p w s = devWriteByte (p + 1) (lowByte w) (devWriteByte p (highByte w) s) ∧
    (p.toNat / 16 = 0 → devWriteByte p v s = systemHandler p v (s.setDevByte p v)) ∧
    (p.toNat / 16 = 1 → devWriteByte p v s = consoleHandler p v (s.setDevByte p v)) ∧
    (p.toNat / 16 = 2 → devWriteByte p v s = screenHandler p (s.setDevByte p v)) ∧
    (3 ≤ p.toNat / 16 → devWriteByte p v s = (s.setDevByte p v).diag (.unmappedDevicePort p v)) ∧
    ({ s.setDevByte p v with dev := s.dev } : State) = s ∧
    (Cells.wf 0 s.dev = true → ∀ q : Byte, (s.setDevByte p v).devByte q = if q = p then v else s.devByte q)

/-- For ports 0x08 to 0x0D: the write stores the byte and sets the port's channel of colour c0 to the doubled high nibble
and of colour c0 + 1 to the doubled low nibble, with c0 = 2((p - 8) mod 2); every other channel, and everything else,
is as before. -/
def Obligations.PaletteWriteSetsTwoChannels : Prop :=
  ∀ (s : State) (p v : Byte), 0x08 ≤ p.toNat → p.toNat ≤ 0x0D →
    let q := p.toNat - 8
    let c0 := 2 * (q % 2)
    (∀ (c : Colour) (ch : Channel), ((devWriteByte p v s).palette.colour c).channel ch =
      if ch ≠ (if q / 2 = 0 then .red else if q / 2 = 1 then .green else .blue) then (s.palette.colour c).channel ch
      else if c.toNat = c0 then BitVec.ofNat 8 (v.toNat / 16 * 17)
      else if c.toNat = c0 + 1 then BitVec.ofNat 8 (v.toNat % 16 * 17)
      else (s.palette.colour c).channel ch) ∧
    ({ devWriteByte p v s with palette := s.palette } : State) = s.setDevByte p v

/-- For ports 0x10 to 0x1F: the write stores the byte; port 0x18 also appends it to console_out; nothing else changes. -/
def Obligations.ConsoleWriteAppendsToTheSink : Prop :=
  ∀ (s : State) (p v : Byte), 0x10 ≤ p.toNat → p.toNat ≤ 0x1F →
    devWriteByte p v s =
      { s.setDevByte p v with consoleOut := if p = 0x18 then s.consoleOut ++ [v] else s.consoleOut }

/-- While an instruction executes (current holds its opcode and address), for ports 0x30 to 0xFF: the write stores the
byte and appends the record of UnmappedDevicePort with code 0x10, the port, the value and the address of the current
opcode; nothing else changes. -/
def Obligations.UnmappedWriteIsStoredAndReported : Prop :=
  ∀ (s : State) (p v : Byte) (c : Current), s.current = some c → 0x30 ≤ p.toNat →
    devWriteByte p v s =
      { s.setDevByte p v with diagnostics := s.diagnostics ++ [⟨0x10, .unmappedDevicePort p v, c.address⟩] }

/-- For System ports 0x00-0x07, 0x0E, 0x0F and Screen ports 0x20-0x22, 0x24, 0x26-0x2D a write stores the byte and changes
nothing else, with no diagnostic. -/
def Obligations.InertPortsOnlyStore : Prop :=
  ∀ (s : State) (p v : Byte),
    p.toNat ≤ 0x07 ∨ p = 0x0E ∨ p = 0x0F ∨ p = 0x20 ∨ p = 0x21 ∨ p = 0x22 ∨ p = 0x24 ∨
      (0x26 ≤ p.toNat ∧ p.toNat ≤ 0x2D) →
    devWriteByte p v s = s.setDevByte p v

/-- With the device page in canonical form: a write of v to 0x23 (0x25) makes the live width (height) the short of
dev[0x22] (dev[0x24]) and v, keeps the other dimension and the dirty flag, and makes every fg cell T and every bg cell
0; nothing else but the stored byte changes. -/
def Obligations.ResizeLoadsOneDimensionAndClears : Prop :=
  ∀ (s : State) (v : Byte), Cells.wf 0 s.dev = true →
    (∀ p ∈ ([0x23, 0x25] : List Byte),
      (∀ x y, (devWriteByte p v s).screen.fgAt x y = .transparent) ∧
      (∀ x y, (devWriteByte p v s).screen.bgAt x y = 0) ∧
      (devWriteByte p v s).screen.dirty = s.screen.dirty ∧
      ({ devWriteByte p v s with screen := s.screen } : State) = s.setDevByte p v) ∧
    (devWriteByte 0x23 v s).screen.width = shortOf (s.devByte 0x22) v ∧
    (devWriteByte 0x23 v s).screen.height = s.screen.height ∧
    (devWriteByte 0x25 v s).screen.width = s.screen.width ∧
    (devWriteByte 0x25 v s).screen.height = shortOf (s.devByte 0x24) v

/-- With both layers in canonical form: inside the live size the cell of the selected layer at (x, y) becomes the colour
(T for colour 0 on fg); outside nothing changes; every other cell of both layers and the size are as before; dirty is
set exactly when the cell in bounds held another value, and is kept otherwise. -/
def Obligations.WritePixelChangesOneCellInBounds : Prop :=
  ∀ (sc : Screen) (x y : Word) (c : Colour) (layer : Layer),
    Cells.wf .transparent sc.fg = true → Cells.wf 0 sc.bg = true →
    let out := sc.writePixel x y c layer
    let fits := x.toNat < sc.width.toNat ∧ y.toNat < sc.height.toNat
    let val : FgCell := if c = 0 then .transparent else if c = 1 then .one else if c = 2 then .two else .three
    out.width = sc.width ∧ out.height = sc.height ∧
    (∀ x' y', out.fgAt x' y' = if layer = .fg ∧ fits ∧ x' = x ∧ y' = y then val else sc.fgAt x' y') ∧
    (∀ x' y', out.bgAt x' y' = if layer = .bg ∧ fits ∧ x' = x ∧ y' = y then c else sc.bgAt x' y') ∧
    (out.dirty = true ↔ sc.dirty = true ∨
      (fits ∧ ((layer = .fg ∧ sc.fgAt x y ≠ val) ∨ (layer = .bg ∧ sc.bgAt x y ≠ c))))

/-- With the device page in canonical form: a write of f to 0x2E writes the pixel at the cursor with colour f[1:0] on the
layer of f[6], then adds 1 mod 2^16 to x when CTL bit 0 and to y when CTL bit 1 is set, in bounds or not; only the
screen, the byte at 0x2E and the cursor ports change. -/
def Obligations.PixelCommandDrawsAndAdvances : Prop :=
  ∀ (s : State) (f : Byte), Cells.wf 0 s.dev = true →
    let t := devWriteByte 0x2E f s
    t.screen = s.screen.writePixel s.cursorX s.cursorY (f.extractLsb' 0 2) (if f.getLsbD 6 then .fg else .bg) ∧
    t.cursorX = (if s.autoCtl.getLsbD 0 then s.cursorX + 1 else s.cursorX) ∧
    t.cursorY = (if s.autoCtl.getLsbD 1 then s.cursorY + 1 else s.cursorY) ∧
    (∀ p : Byte, p ∉ ([0x28, 0x29, 0x2A, 0x2B, 0x2E] : List Byte) → t.devByte p = s.devByte p) ∧
    t.devByte 0x2E = f ∧
    ({ t with screen := s.screen, dev := s.dev } : State) = s

/-- While an instruction executes (current holds its opcode and address), with the device page in canonical form: when the
sprite address plus (n + 1) tiles passes 0x10000, a write of f to 0x2F stores the byte and appends the
SpriteReadOutOfBounds record with code 0x11, the address, the length and the address of the current opcode; nothing
else changes. -/
def Obligations.SpriteOutOfBoundsDrawsNothing : Prop :=
  ∀ (s : State) (f : Byte) (c : Current), s.current = some c → Cells.wf 0 s.dev = true →
    let len := (s.autoCtl.toNat / 16 + 1) * (if f.getLsbD 7 then 16 else 8)
    0x10000 < s.spriteAddr.toNat + len →
    devWriteByte 0x2F f s =
      { s.setDevByte 0x2F f with
        diagnostics := s.diagnostics ++ [⟨0x11, .spriteReadOutOfBounds s.spriteAddr len, c.address⟩] }

/-- With the device page in canonical form and the run in bounds: a write of f to 0x2F draws tiles i = 0 to n in order,
tile i at (x + dy*i, y + dx*i) from address A + step*i; then the cursor is (x + dx, y + dy) and the address A +
step*(n + 1), mod 2^16; step is 8 or 16, or 0 when the parameter gates it by CTL bit 2 and that is clear; only the
screen, the byte at 0x2F and the ports 0x28 to 0x2D change; the live size stays, and a dirty flag that is set stays
set. -/
def Obligations.SpriteCommandDrawsAndWritesBack : Prop :=
  ∀ (s : State) (f : Byte), Cells.wf 0 s.dev = true →
    let ctl := s.autoCtl
    let n := ctl.toNat / 16
    let two := f.getLsbD 7
    let dx : Word := if ctl.getLsbD 0 then 8 else 0
    let dy : Word := if ctl.getLsbD 1 then 8 else 0
    let step := if s.cfg.addrAdvance = .always ∨ ctl.getLsbD 2 = true then (if two then 16 else 8) else 0
    let m : SpriteMode :=
      { layer := if f.getLsbD 6 then .fg else .bg, flipX := f.getLsbD 4, flipY := f.getLsbD 5,
        twoBpp := two, sel := f.extractLsb' 0 4, isOpaque := s.cfg.blend.opaqueRow[(f.extractLsb' 0 4).toNat] != 0 }
    let t := devWriteByte 0x2F f s
    s.spriteAddr.toNat + (n + 1) * (if two then 16 else 8) ≤ 0x10000 →
    t.screen = (List.range (n + 1)).foldl (fun sc i => blit s m (s.cursorX + dy * BitVec.ofNat 16 i)
      (s.cursorY + dx * BitVec.ofNat 16 i) (s.spriteAddr.toNat + step * i) sc) s.screen ∧
    t.screen.width = s.screen.width ∧ t.screen.height = s.screen.height ∧
    (s.screen.dirty = true → t.screen.dirty = true) ∧
    t.cursorX = s.cursorX + dx ∧ t.cursorY = s.cursorY + dy ∧
    t.spriteAddr = BitVec.ofNat 16 (s.spriteAddr.toNat + step * (n + 1)) ∧
    (∀ p : Byte, p ∉ ([0x28, 0x29, 0x2A, 0x2B, 0x2C, 0x2D, 0x2F] : List Byte) → t.devByte p = s.devByte p) ∧
    t.devByte 0x2F = f ∧
    ({ t with screen := s.screen, dev := s.dev } : State) = s

/-- With both layers in canonical form, for every pixel (px, py): it lies at tile offset (px - x, py - y) mod 2^16; if
both offsets are below 8, the pixel is inside the live size, and its class (from the plane bits of the mirrored column
and row) is nonzero or the selector is opaque, the selected layer holds the blended colour there (T for colour 0 on
fg); every other pixel of the selected layer, and the whole other layer, is as before. The live size is as before;
dirty is set exactly when a drawn pixel held another value, and is kept otherwise. -/
def Obligations.BlitDrawsTheTilePixelByPixel : Prop :=
  ∀ (s : State) (m : SpriteMode) (x y : Word) (a : Nat) (sc : Screen),
    Cells.wf .transparent sc.fg = true → Cells.wf 0 sc.bg = true →
    let out := blit s m x y a sc
    let cx : Word → Nat := fun px => (px - x).toNat
    let cy : Word → Nat := fun py => (py - y).toNat
    let ch : Word → Word → Nat := fun px py =>
      tileClass s m.twoBpp a (if m.flipX then 7 - cx px else cx px) (if m.flipY then 7 - cy py else cy py)
    let drawn : Word → Word → Prop := fun px py =>
      cx px < 8 ∧ cy py < 8 ∧ px.toNat < sc.width.toNat ∧ py.toNat < sc.height.toNat ∧ (m.isOpaque = true ∨ ch px py ≠ 0)
    let t := s.cfg.blend
    let c : Word → Word → Colour := fun px py =>
      if ch px py = 0 then t.row0[m.sel.toNat] else if ch px py = 1 then t.row1[m.sel.toNat]
      else if ch px py = 2 then t.row2[m.sel.toNat] else t.row3[m.sel.toNat]
    out.width = sc.width ∧ out.height = sc.height ∧
    (out.dirty = true ↔ sc.dirty = true ∨ ∃ px py : Word, drawn px py ∧
      ((m.layer = .fg ∧ sc.fgAt px py ≠ .ofColour (c px py)) ∨ (m.layer = .bg ∧ sc.bgAt px py ≠ c px py))) ∧
    ∀ px py : Word,
      (drawn px py → m.layer = .fg → out.fgAt px py = .ofColour (c px py) ∧ out.bgAt px py = sc.bgAt px py) ∧
      (drawn px py → m.layer = .bg → out.bgAt px py = c px py ∧ out.fgAt px py = sc.fgAt px py) ∧
      (¬ drawn px py → out.fgAt px py = sc.fgAt px py ∧ out.bgAt px py = sc.bgAt px py)

/-- The frame has the live width and height, and at every (x, y) inside it the pixel has the index of the foreground cell
when that is not T and of the background cell otherwise, with the palette colour of that index. -/
def Obligations.CompositeOverlaysForegroundOnBackground : Prop :=
  ∀ s : State, s.composite.width = s.screen.width.toNat ∧ s.composite.height = s.screen.height.toNat ∧
    s.composite.rows.length = s.screen.height.toNat ∧
    ∀ x y : Word, x.toNat < s.screen.width.toNat → y.toNat < s.screen.height.toNat →
      ∃ (row : List Pixel) (px : Pixel), s.composite.rows[y.toNat]? = some row ∧
        row.length = s.screen.width.toNat ∧ row[x.toNat]? = some px ∧
        px.rgb = s.palette.colour px.index ∧
        (s.screen.fgAt x y = .transparent → px.index = s.screen.bgAt x y) ∧
        (s.screen.fgAt x y = .one → px.index = 1) ∧ (s.screen.fgAt x y = .two → px.index = 2) ∧
        (s.screen.fgAt x y = .three → px.index = 3)

/-- With no evaluate running: present answers the composite when dirty is set and none otherwise; it clears dirty and
changes nothing else; a second present answers none and leaves dirty clear, and composite is the same after it. -/
def Obligations.PresentReturnsAFrameOnlyWhenDirty : Prop :=
  ∀ s : State, s.running = false →
    hostMove .present s = .next { s with screen := { s.screen with dirty := false } } ∧
    (s.screen.dirty = true → s.presentFrame = some s.composite) ∧
    (s.screen.dirty = false → s.presentFrame = none) ∧
    ∀ t, hostMove .present s = .next t → t.presentFrame = none ∧ t.screen.dirty = false ∧ t.composite = s.composite

/-- With no evaluate running, RAM in canonical form and the load still to be made: an image of at most 0xFF00 bytes stands
in RAM from 0x0100 on, every other byte of RAM and everything else is as before (the load is then closed, a field of
the model); a longer image is refused with nothing written; a second load has no step (the model reads R310 so, log
10). -/
def Obligations.LoadCopiesTheImageToItsOffset : Prop :=
  ∀ (s : State) (image : List Byte), s.running = false → Memory.wf s.ram = true →
    (s.loadOpen = true → image.length ≤ 0xFF00 →
      ∃ m, hostMove (.load image) s = .next { s with ram := m, loadOpen := false } ∧
        ∀ a : Word, Cells.read 0 m a.toNat =
          if 0x0100 ≤ a.toNat ∧ a.toNat < 0x0100 + image.length then image.getD (a.toNat - 0x0100) 0 else s.ramByte a) ∧
    (s.loadOpen = true → 0xFF00 < image.length → hostMove (.load image) s = .refused .imageTooLong) ∧
    (s.loadOpen = false → hostMove (.load image) s = .fault .loadNotOpen)

/-- While an evaluate runs every host transaction is stuck (a fault by name, log 17); otherwise creation anew gives the
created machine, and the drains empty their stream and change nothing else. -/
def Obligations.HostActsOnlyBetweenEvaluates : Prop :=
  ∀ s : State,
    (s.running = true → ∀ m, hostMove m s = .fault .transactionWhileRunning) ∧
    (s.running = false → hostMove .recreate s = .next (State.create s.cfg) ∧
      hostMove .drainConsole s = .next { s with consoleOut := [] } ∧
      hostMove .drainDiagnostics s = .next { s with diagnostics := [] })
end

