-- ==== Sys2Proof/Laws/Bits.lean ====
section
/-! SUPPORT. Bytes and shorts: a short is its high byte and its low byte (00_scope R17). -/
namespace Sys2Proof.Machine

@[simp] theorem highByte_shortOf (hi lo : Byte) : highByte (shortOf hi lo) = hi := by
  apply BitVec.eq_of_getLsbD_eq
  intro i hi'
  simp only [highByte, shortOf, BitVec.getLsbD_extractLsb', BitVec.getLsbD_append]
  rw [if_neg (by omega)]
  simp [hi']

@[simp] theorem lowByte_shortOf (hi lo : Byte) : lowByte (shortOf hi lo) = lo := by
  apply BitVec.eq_of_getLsbD_eq
  intro i hi'
  simp only [lowByte, shortOf, BitVec.getLsbD_extractLsb', BitVec.getLsbD_append]
  rw [if_pos (by omega)]
  simp [hi']

@[simp] theorem shortOf_bytes (v : Word) : shortOf (highByte v) (lowByte v) = v := by
  apply BitVec.eq_of_getLsbD_eq
  intro i hi'
  simp only [highByte, lowByte, shortOf, BitVec.getLsbD_append, BitVec.getLsbD_extractLsb']
  by_cases h : i < 8
  · rw [if_pos h]; simp [h]
  · rw [if_neg h, show 8 + (i - 8) = i by omega]; simp [show i - 8 < 8 by omega]

@[simp] theorem lowByte_zext16 (b : Byte) : lowByte (zext16 b) = b := by
  apply BitVec.eq_of_getLsbD_eq
  intro i hi'
  simp only [lowByte, zext16, BitVec.getLsbD_extractLsb', BitVec.getLsbD_setWidth]
  simp [hi', show i < 16 by omega]

end Sys2Proof.Machine
end

