-- ==== Sys2Proof/Laws/State.lean ====
section
/-! SUPPORT. One lemma per field per state update, each true by unfolding the update once, so that no proof unfolds a record
update again. -/
namespace Sys2Proof.Machine

/-! ### Stacks as one family -/

@[simp] theorem stack_setStack_same (s : State) (id : StackId) (st : Stack) : (s.setStack id st).stack id = st := by
  cases id <;> rfl

theorem stack_setStack_ne (s : State) (id jd : StackId) (st : Stack) (h : id ≠ jd) :
    (s.setStack id st).stack jd = s.stack jd := by
  cases id <;> cases jd <;> first | rfl | exact absurd rfl h

@[simp] theorem setStack_setStack (s : State) (id : StackId) (st st' : Stack) :
    (s.setStack id st).setStack id st' = s.setStack id st' := by
  cases id <;> rfl

@[simp] theorem setStack_stack (s : State) (id : StackId) : s.setStack id (s.stack id) = s := by
  cases id <;> rfl

theorem setStack_comm (s : State) (id jd : StackId) (st st' : Stack) (h : id ≠ jd) :
    (s.setStack id st).setStack jd st' = (s.setStack jd st').setStack id st := by
  cases id <;> cases jd <;> first | rfl | exact absurd rfl h

@[simp] theorem setStack_cfg (s : State) (id : StackId) (st : Stack) : (s.setStack id st).cfg = s.cfg := by
  cases id <;> rfl
@[simp] theorem setStack_ram (s : State) (id : StackId) (st : Stack) : (s.setStack id st).ram = s.ram := by
  cases id <;> rfl
@[simp] theorem setStack_dev (s : State) (id : StackId) (st : Stack) : (s.setStack id st).dev = s.dev := by
  cases id <;> rfl
@[simp] theorem setStack_pc (s : State) (id : StackId) (st : Stack) : (s.setStack id st).pc = s.pc := by
  cases id <;> rfl
@[simp] theorem setStack_keep (s : State) (id : StackId) (st : Stack) : (s.setStack id st).keep = s.keep := by
  cases id <;> rfl
@[simp] theorem setStack_ret (s : State) (id : StackId) (st : Stack) : (s.setStack id st).ret = s.ret := by
  cases id <;> rfl
@[simp] theorem setStack_short (s : State) (id : StackId) (st : Stack) : (s.setStack id st).short = s.short := by
  cases id <;> rfl
@[simp] theorem setStack_kptr (s : State) (id : StackId) (st : Stack) : (s.setStack id st).kptr = s.kptr := by
  cases id <;> rfl
@[simp] theorem setStack_current (s : State) (id : StackId) (st : Stack) : (s.setStack id st).current = s.current := by
  cases id <;> rfl
@[simp] theorem setStack_budget (s : State) (id : StackId) (st : Stack) : (s.setStack id st).budget = s.budget := by
  cases id <;> rfl
@[simp] theorem setStack_screen (s : State) (id : StackId) (st : Stack) : (s.setStack id st).screen = s.screen := by
  cases id <;> rfl
@[simp] theorem setStack_palette (s : State) (id : StackId) (st : Stack) : (s.setStack id st).palette = s.palette := by
  cases id <;> rfl
@[simp] theorem setStack_consoleOut (s : State) (id : StackId) (st : Stack) : (s.setStack id st).consoleOut = s.consoleOut := by
  cases id <;> rfl
@[simp] theorem setStack_diagnostics (s : State) (id : StackId) (st : Stack) : (s.setStack id st).diagnostics = s.diagnostics := by
  cases id <;> rfl
@[simp] theorem setStack_outcome (s : State) (id : StackId) (st : Stack) : (s.setStack id st).outcome = s.outcome := by
  cases id <;> rfl
@[simp] theorem setStack_running (s : State) (id : StackId) (st : Stack) : (s.setStack id st).running = s.running := by
  cases id <;> rfl
@[simp] theorem setStack_loadOpen (s : State) (id : StackId) (st : Stack) : (s.setStack id st).loadOpen = s.loadOpen := by
  cases id <;> rfl
@[simp] theorem setStack_w_wst (s : State) (st : Stack) : (s.setStack .w st).wst = st := rfl
@[simp] theorem setStack_w_rst (s : State) (st : Stack) : (s.setStack .w st).rst = s.rst := rfl
@[simp] theorem setStack_r_wst (s : State) (st : Stack) : (s.setStack .r st).wst = s.wst := rfl
@[simp] theorem setStack_r_rst (s : State) (st : Stack) : (s.setStack .r st).rst = st := rfl

/-! ### setRamByte -/

@[simp] theorem setRamByte_cfg (s : State) (a : Word) (v : Byte) : (s.setRamByte a v).cfg = s.cfg := rfl
@[simp] theorem setRamByte_ram (s : State) (a : Word) (v : Byte) : (s.setRamByte a v).ram = Cells.write 0 s.ram a.toNat v := rfl
@[simp] theorem setRamByte_wst (s : State) (a : Word) (v : Byte) : (s.setRamByte a v).wst = s.wst := rfl
@[simp] theorem setRamByte_rst (s : State) (a : Word) (v : Byte) : (s.setRamByte a v).rst = s.rst := rfl
@[simp] theorem setRamByte_dev (s : State) (a : Word) (v : Byte) : (s.setRamByte a v).dev = s.dev := rfl
@[simp] theorem setRamByte_pc (s : State) (a : Word) (v : Byte) : (s.setRamByte a v).pc = s.pc := rfl
@[simp] theorem setRamByte_keep (s : State) (a : Word) (v : Byte) : (s.setRamByte a v).keep = s.keep := rfl
@[simp] theorem setRamByte_ret (s : State) (a : Word) (v : Byte) : (s.setRamByte a v).ret = s.ret := rfl
@[simp] theorem setRamByte_short (s : State) (a : Word) (v : Byte) : (s.setRamByte a v).short = s.short := rfl
@[simp] theorem setRamByte_kptr (s : State) (a : Word) (v : Byte) : (s.setRamByte a v).kptr = s.kptr := rfl
@[simp] theorem setRamByte_current (s : State) (a : Word) (v : Byte) : (s.setRamByte a v).current = s.current := rfl
@[simp] theorem setRamByte_budget (s : State) (a : Word) (v : Byte) : (s.setRamByte a v).budget = s.budget := rfl
@[simp] theorem setRamByte_screen (s : State) (a : Word) (v : Byte) : (s.setRamByte a v).screen = s.screen := rfl
@[simp] theorem setRamByte_palette (s : State) (a : Word) (v : Byte) : (s.setRamByte a v).palette = s.palette := rfl
@[simp] theorem setRamByte_consoleOut (s : State) (a : Word) (v : Byte) : (s.setRamByte a v).consoleOut = s.consoleOut := rfl
@[simp] theorem setRamByte_diagnostics (s : State) (a : Word) (v : Byte) : (s.setRamByte a v).diagnostics = s.diagnostics := rfl
@[simp] theorem setRamByte_outcome (s : State) (a : Word) (v : Byte) : (s.setRamByte a v).outcome = s.outcome := rfl
@[simp] theorem setRamByte_running (s : State) (a : Word) (v : Byte) : (s.setRamByte a v).running = s.running := rfl
@[simp] theorem setRamByte_loadOpen (s : State) (a : Word) (v : Byte) : (s.setRamByte a v).loadOpen = s.loadOpen := rfl
@[simp] theorem setRamByte_stack (s : State) (a : Word) (v : Byte) (id : StackId) : (s.setRamByte a v).stack id = s.stack id := by
  cases id <;> rfl

/-! ### setDevByte -/

@[simp] theorem setDevByte_cfg (s : State) (p v : Byte) : (s.setDevByte p v).cfg = s.cfg := rfl
@[simp] theorem setDevByte_ram (s : State) (p v : Byte) : (s.setDevByte p v).ram = s.ram := rfl
@[simp] theorem setDevByte_wst (s : State) (p v : Byte) : (s.setDevByte p v).wst = s.wst := rfl
@[simp] theorem setDevByte_rst (s : State) (p v : Byte) : (s.setDevByte p v).rst = s.rst := rfl
@[simp] theorem setDevByte_dev (s : State) (p v : Byte) : (s.setDevByte p v).dev = Cells.write 0 s.dev p.toNat v := rfl
@[simp] theorem setDevByte_pc (s : State) (p v : Byte) : (s.setDevByte p v).pc = s.pc := rfl
@[simp] theorem setDevByte_keep (s : State) (p v : Byte) : (s.setDevByte p v).keep = s.keep := rfl
@[simp] theorem setDevByte_ret (s : State) (p v : Byte) : (s.setDevByte p v).ret = s.ret := rfl
@[simp] theorem setDevByte_short (s : State) (p v : Byte) : (s.setDevByte p v).short = s.short := rfl
@[simp] theorem setDevByte_kptr (s : State) (p v : Byte) : (s.setDevByte p v).kptr = s.kptr := rfl
@[simp] theorem setDevByte_current (s : State) (p v : Byte) : (s.setDevByte p v).current = s.current := rfl
@[simp] theorem setDevByte_budget (s : State) (p v : Byte) : (s.setDevByte p v).budget = s.budget := rfl
@[simp] theorem setDevByte_screen (s : State) (p v : Byte) : (s.setDevByte p v).screen = s.screen := rfl
@[simp] theorem setDevByte_palette (s : State) (p v : Byte) : (s.setDevByte p v).palette = s.palette := rfl
@[simp] theorem setDevByte_consoleOut (s : State) (p v : Byte) : (s.setDevByte p v).consoleOut = s.consoleOut := rfl
@[simp] theorem setDevByte_diagnostics (s : State) (p v : Byte) : (s.setDevByte p v).diagnostics = s.diagnostics := rfl
@[simp] theorem setDevByte_outcome (s : State) (p v : Byte) : (s.setDevByte p v).outcome = s.outcome := rfl
@[simp] theorem setDevByte_running (s : State) (p v : Byte) : (s.setDevByte p v).running = s.running := rfl
@[simp] theorem setDevByte_loadOpen (s : State) (p v : Byte) : (s.setDevByte p v).loadOpen = s.loadOpen := rfl
@[simp] theorem setDevByte_stack (s : State) (p v : Byte) (id : StackId) : (s.setDevByte p v).stack id = s.stack id := by
  cases id <;> rfl

/-! ### setDevShort -/

@[simp] theorem setDevShort_cfg (s : State) (p : Byte) (v : Word) : (s.setDevShort p v).cfg = s.cfg := rfl
@[simp] theorem setDevShort_ram (s : State) (p : Byte) (v : Word) : (s.setDevShort p v).ram = s.ram := rfl
@[simp] theorem setDevShort_wst (s : State) (p : Byte) (v : Word) : (s.setDevShort p v).wst = s.wst := rfl
@[simp] theorem setDevShort_rst (s : State) (p : Byte) (v : Word) : (s.setDevShort p v).rst = s.rst := rfl
@[simp] theorem setDevShort_dev (s : State) (p : Byte) (v : Word) : (s.setDevShort p v).dev = Cells.write 0 (Cells.write 0 s.dev p.toNat (highByte v)) (p + 1).toNat (lowByte v) := rfl
@[simp] theorem setDevShort_pc (s : State) (p : Byte) (v : Word) : (s.setDevShort p v).pc = s.pc := rfl
@[simp] theorem setDevShort_keep (s : State) (p : Byte) (v : Word) : (s.setDevShort p v).keep = s.keep := rfl
@[simp] theorem setDevShort_ret (s : State) (p : Byte) (v : Word) : (s.setDevShort p v).ret = s.ret := rfl
@[simp] theorem setDevShort_short (s : State) (p : Byte) (v : Word) : (s.setDevShort p v).short = s.short := rfl
@[simp] theorem setDevShort_kptr (s : State) (p : Byte) (v : Word) : (s.setDevShort p v).kptr = s.kptr := rfl
@[simp] theorem setDevShort_current (s : State) (p : Byte) (v : Word) : (s.setDevShort p v).current = s.current := rfl
@[simp] theorem setDevShort_budget (s : State) (p : Byte) (v : Word) : (s.setDevShort p v).budget = s.budget := rfl
@[simp] theorem setDevShort_screen (s : State) (p : Byte) (v : Word) : (s.setDevShort p v).screen = s.screen := rfl
@[simp] theorem setDevShort_palette (s : State) (p : Byte) (v : Word) : (s.setDevShort p v).palette = s.palette := rfl
@[simp] theorem setDevShort_consoleOut (s : State) (p : Byte) (v : Word) : (s.setDevShort p v).consoleOut = s.consoleOut := rfl
@[simp] theorem setDevShort_diagnostics (s : State) (p : Byte) (v : Word) : (s.setDevShort p v).diagnostics = s.diagnostics := rfl
@[simp] theorem setDevShort_outcome (s : State) (p : Byte) (v : Word) : (s.setDevShort p v).outcome = s.outcome := rfl
@[simp] theorem setDevShort_running (s : State) (p : Byte) (v : Word) : (s.setDevShort p v).running = s.running := rfl
@[simp] theorem setDevShort_loadOpen (s : State) (p : Byte) (v : Word) : (s.setDevShort p v).loadOpen = s.loadOpen := rfl
@[simp] theorem setDevShort_stack (s : State) (p : Byte) (v : Word) (id : StackId) : (s.setDevShort p v).stack id = s.stack id := by
  cases id <;> rfl

/-! ### setPc -/

@[simp] theorem setPc_cfg (s : State) (v : Word) : (s.setPc v).cfg = s.cfg := rfl
@[simp] theorem setPc_ram (s : State) (v : Word) : (s.setPc v).ram = s.ram := rfl
@[simp] theorem setPc_wst (s : State) (v : Word) : (s.setPc v).wst = s.wst := rfl
@[simp] theorem setPc_rst (s : State) (v : Word) : (s.setPc v).rst = s.rst := rfl
@[simp] theorem setPc_dev (s : State) (v : Word) : (s.setPc v).dev = s.dev := rfl
@[simp] theorem setPc_pc (s : State) (v : Word) : (s.setPc v).pc = v := rfl
@[simp] theorem setPc_keep (s : State) (v : Word) : (s.setPc v).keep = s.keep := rfl
@[simp] theorem setPc_ret (s : State) (v : Word) : (s.setPc v).ret = s.ret := rfl
@[simp] theorem setPc_short (s : State) (v : Word) : (s.setPc v).short = s.short := rfl
@[simp] theorem setPc_kptr (s : State) (v : Word) : (s.setPc v).kptr = s.kptr := rfl
@[simp] theorem setPc_current (s : State) (v : Word) : (s.setPc v).current = s.current := rfl
@[simp] theorem setPc_budget (s : State) (v : Word) : (s.setPc v).budget = s.budget := rfl
@[simp] theorem setPc_screen (s : State) (v : Word) : (s.setPc v).screen = s.screen := rfl
@[simp] theorem setPc_palette (s : State) (v : Word) : (s.setPc v).palette = s.palette := rfl
@[simp] theorem setPc_consoleOut (s : State) (v : Word) : (s.setPc v).consoleOut = s.consoleOut := rfl
@[simp] theorem setPc_diagnostics (s : State) (v : Word) : (s.setPc v).diagnostics = s.diagnostics := rfl
@[simp] theorem setPc_outcome (s : State) (v : Word) : (s.setPc v).outcome = s.outcome := rfl
@[simp] theorem setPc_running (s : State) (v : Word) : (s.setPc v).running = s.running := rfl
@[simp] theorem setPc_loadOpen (s : State) (v : Word) : (s.setPc v).loadOpen = s.loadOpen := rfl
@[simp] theorem setPc_stack (s : State) (v : Word) (id : StackId) : (s.setPc v).stack id = s.stack id := by
  cases id <;> rfl

/-! ### diag -/

@[simp] theorem diag_cfg (s : State) (k : DiagKind) : (s.diag k).cfg = s.cfg := rfl
@[simp] theorem diag_ram (s : State) (k : DiagKind) : (s.diag k).ram = s.ram := rfl
@[simp] theorem diag_wst (s : State) (k : DiagKind) : (s.diag k).wst = s.wst := rfl
@[simp] theorem diag_rst (s : State) (k : DiagKind) : (s.diag k).rst = s.rst := rfl
@[simp] theorem diag_dev (s : State) (k : DiagKind) : (s.diag k).dev = s.dev := rfl
@[simp] theorem diag_pc (s : State) (k : DiagKind) : (s.diag k).pc = s.pc := rfl
@[simp] theorem diag_keep (s : State) (k : DiagKind) : (s.diag k).keep = s.keep := rfl
@[simp] theorem diag_ret (s : State) (k : DiagKind) : (s.diag k).ret = s.ret := rfl
@[simp] theorem diag_short (s : State) (k : DiagKind) : (s.diag k).short = s.short := rfl
@[simp] theorem diag_kptr (s : State) (k : DiagKind) : (s.diag k).kptr = s.kptr := rfl
@[simp] theorem diag_current (s : State) (k : DiagKind) : (s.diag k).current = s.current := rfl
@[simp] theorem diag_budget (s : State) (k : DiagKind) : (s.diag k).budget = s.budget := rfl
@[simp] theorem diag_screen (s : State) (k : DiagKind) : (s.diag k).screen = s.screen := rfl
@[simp] theorem diag_palette (s : State) (k : DiagKind) : (s.diag k).palette = s.palette := rfl
@[simp] theorem diag_consoleOut (s : State) (k : DiagKind) : (s.diag k).consoleOut = s.consoleOut := rfl
@[simp] theorem diag_diagnostics (s : State) (k : DiagKind) : (s.diag k).diagnostics = s.diagnostics ++ [⟨k.code, k, s.opAddr⟩] := rfl
@[simp] theorem diag_outcome (s : State) (k : DiagKind) : (s.diag k).outcome = s.outcome := rfl
@[simp] theorem diag_running (s : State) (k : DiagKind) : (s.diag k).running = s.running := rfl
@[simp] theorem diag_loadOpen (s : State) (k : DiagKind) : (s.diag k).loadOpen = s.loadOpen := rfl
@[simp] theorem diag_stack (s : State) (k : DiagKind) (id : StackId) : (s.diag k).stack id = s.stack id := by
  cases id <;> rfl

/-! ### decoded -/

@[simp] theorem decoded_cfg (s : State) (b : Byte) : (s.decoded b).cfg = s.cfg := rfl
@[simp] theorem decoded_ram (s : State) (b : Byte) : (s.decoded b).ram = s.ram := rfl
@[simp] theorem decoded_wst (s : State) (b : Byte) : (s.decoded b).wst = s.wst := rfl
@[simp] theorem decoded_rst (s : State) (b : Byte) : (s.decoded b).rst = s.rst := rfl
@[simp] theorem decoded_dev (s : State) (b : Byte) : (s.decoded b).dev = s.dev := rfl
@[simp] theorem decoded_pc (s : State) (b : Byte) : (s.decoded b).pc = s.pc := rfl
@[simp] theorem decoded_keep (s : State) (b : Byte) : (s.decoded b).keep = keepBit b := rfl
@[simp] theorem decoded_ret (s : State) (b : Byte) : (s.decoded b).ret = returnBit b := rfl
@[simp] theorem decoded_short (s : State) (b : Byte) : (s.decoded b).short = shortBit b := rfl
@[simp] theorem decoded_kptr (s : State) (b : Byte) : (s.decoded b).kptr = none := rfl
@[simp] theorem decoded_current (s : State) (b : Byte) : (s.decoded b).current = some ⟨b, s.pc - 1⟩ := rfl
@[simp] theorem decoded_budget (s : State) (b : Byte) : (s.decoded b).budget = s.budget := rfl
@[simp] theorem decoded_screen (s : State) (b : Byte) : (s.decoded b).screen = s.screen := rfl
@[simp] theorem decoded_palette (s : State) (b : Byte) : (s.decoded b).palette = s.palette := rfl
@[simp] theorem decoded_consoleOut (s : State) (b : Byte) : (s.decoded b).consoleOut = s.consoleOut := rfl
@[simp] theorem decoded_diagnostics (s : State) (b : Byte) : (s.decoded b).diagnostics = s.diagnostics := rfl
@[simp] theorem decoded_outcome (s : State) (b : Byte) : (s.decoded b).outcome = s.outcome := rfl
@[simp] theorem decoded_running (s : State) (b : Byte) : (s.decoded b).running = s.running := rfl
@[simp] theorem decoded_loadOpen (s : State) (b : Byte) : (s.decoded b).loadOpen = s.loadOpen := rfl
@[simp] theorem decoded_stack (s : State) (b : Byte) (id : StackId) : (s.decoded b).stack id = s.stack id := by
  cases id <;> rfl

/-! ### afterModes -/

@[simp] theorem afterModes_cfg (s : State) (i : Instr) : (s.afterModes i).cfg = s.cfg := rfl
@[simp] theorem afterModes_ram (s : State) (i : Instr) : (s.afterModes i).ram = s.ram := rfl
@[simp] theorem afterModes_wst (s : State) (i : Instr) : (s.afterModes i).wst = s.wst := rfl
@[simp] theorem afterModes_rst (s : State) (i : Instr) : (s.afterModes i).rst = s.rst := rfl
@[simp] theorem afterModes_dev (s : State) (i : Instr) : (s.afterModes i).dev = s.dev := rfl
@[simp] theorem afterModes_pc (s : State) (i : Instr) : (s.afterModes i).pc = s.pc := rfl
@[simp] theorem afterModes_keep (s : State) (i : Instr) : (s.afterModes i).keep = keepBit i.opcode := rfl
@[simp] theorem afterModes_ret (s : State) (i : Instr) : (s.afterModes i).ret = returnBit i.opcode := rfl
@[simp] theorem afterModes_short (s : State) (i : Instr) : (s.afterModes i).short = shortBit i.opcode := rfl
@[simp] theorem afterModes_kptr (s : State) (i : Instr) : (s.afterModes i).kptr = none := rfl
@[simp] theorem afterModes_current (s : State) (i : Instr) : (s.afterModes i).current = none := rfl
@[simp] theorem afterModes_budget (s : State) (i : Instr) : (s.afterModes i).budget = s.budget := rfl
@[simp] theorem afterModes_screen (s : State) (i : Instr) : (s.afterModes i).screen = s.screen := rfl
@[simp] theorem afterModes_palette (s : State) (i : Instr) : (s.afterModes i).palette = s.palette := rfl
@[simp] theorem afterModes_consoleOut (s : State) (i : Instr) : (s.afterModes i).consoleOut = s.consoleOut := rfl
@[simp] theorem afterModes_diagnostics (s : State) (i : Instr) : (s.afterModes i).diagnostics = s.diagnostics := rfl
@[simp] theorem afterModes_outcome (s : State) (i : Instr) : (s.afterModes i).outcome = s.outcome := rfl
@[simp] theorem afterModes_running (s : State) (i : Instr) : (s.afterModes i).running = s.running := rfl
@[simp] theorem afterModes_loadOpen (s : State) (i : Instr) : (s.afterModes i).loadOpen = s.loadOpen := rfl
@[simp] theorem afterModes_stack (s : State) (i : Instr) (id : StackId) : (s.afterModes i).stack id = s.stack id := by
  cases id <;> rfl

/-! ### transientAt -/

@[simp] theorem transientAt_cfg (s : State) (v : Word) : (s.transientAt v).cfg = s.cfg := rfl
@[simp] theorem transientAt_ram (s : State) (v : Word) : (s.transientAt v).ram = s.ram := rfl
@[simp] theorem transientAt_wst (s : State) (v : Word) : (s.transientAt v).wst = s.wst := rfl
@[simp] theorem transientAt_rst (s : State) (v : Word) : (s.transientAt v).rst = s.rst := rfl
@[simp] theorem transientAt_dev (s : State) (v : Word) : (s.transientAt v).dev = s.dev := rfl
@[simp] theorem transientAt_pc (s : State) (v : Word) : (s.transientAt v).pc = v := rfl
@[simp] theorem transientAt_keep (s : State) (v : Word) : (s.transientAt v).keep = false := rfl
@[simp] theorem transientAt_ret (s : State) (v : Word) : (s.transientAt v).ret = false := rfl
@[simp] theorem transientAt_short (s : State) (v : Word) : (s.transientAt v).short = false := rfl
@[simp] theorem transientAt_kptr (s : State) (v : Word) : (s.transientAt v).kptr = none := rfl
@[simp] theorem transientAt_current (s : State) (v : Word) : (s.transientAt v).current = none := rfl
@[simp] theorem transientAt_budget (s : State) (v : Word) : (s.transientAt v).budget = s.cfg.budget := rfl
@[simp] theorem transientAt_screen (s : State) (v : Word) : (s.transientAt v).screen = s.screen := rfl
@[simp] theorem transientAt_palette (s : State) (v : Word) : (s.transientAt v).palette = s.palette := rfl
@[simp] theorem transientAt_consoleOut (s : State) (v : Word) : (s.transientAt v).consoleOut = s.consoleOut := rfl
@[simp] theorem transientAt_diagnostics (s : State) (v : Word) : (s.transientAt v).diagnostics = s.diagnostics := rfl
@[simp] theorem transientAt_outcome (s : State) (v : Word) : (s.transientAt v).outcome = s.outcome := rfl
@[simp] theorem transientAt_running (s : State) (v : Word) : (s.transientAt v).running = s.running := rfl
@[simp] theorem transientAt_loadOpen (s : State) (v : Word) : (s.transientAt v).loadOpen = s.loadOpen := rfl
@[simp] theorem transientAt_stack (s : State) (v : Word) (id : StackId) : (s.transientAt v).stack id = s.stack id := by
  cases id <;> rfl

/-! ### endEvaluate -/

@[simp] theorem endEvaluate_cfg (s : State) (o : EvalOutcome) : (s.endEvaluate o).cfg = s.cfg := rfl
@[simp] theorem endEvaluate_ram (s : State) (o : EvalOutcome) : (s.endEvaluate o).ram = s.ram := rfl
@[simp] theorem endEvaluate_wst (s : State) (o : EvalOutcome) : (s.endEvaluate o).wst = s.wst := rfl
@[simp] theorem endEvaluate_rst (s : State) (o : EvalOutcome) : (s.endEvaluate o).rst = s.rst := rfl
@[simp] theorem endEvaluate_dev (s : State) (o : EvalOutcome) : (s.endEvaluate o).dev = s.dev := rfl
@[simp] theorem endEvaluate_pc (s : State) (o : EvalOutcome) : (s.endEvaluate o).pc = 0 := rfl
@[simp] theorem endEvaluate_keep (s : State) (o : EvalOutcome) : (s.endEvaluate o).keep = false := rfl
@[simp] theorem endEvaluate_ret (s : State) (o : EvalOutcome) : (s.endEvaluate o).ret = false := rfl
@[simp] theorem endEvaluate_short (s : State) (o : EvalOutcome) : (s.endEvaluate o).short = false := rfl
@[simp] theorem endEvaluate_kptr (s : State) (o : EvalOutcome) : (s.endEvaluate o).kptr = none := rfl
@[simp] theorem endEvaluate_current (s : State) (o : EvalOutcome) : (s.endEvaluate o).current = none := rfl
@[simp] theorem endEvaluate_budget (s : State) (o : EvalOutcome) : (s.endEvaluate o).budget = s.cfg.budget := rfl
@[simp] theorem endEvaluate_screen (s : State) (o : EvalOutcome) : (s.endEvaluate o).screen = s.screen := rfl
@[simp] theorem endEvaluate_palette (s : State) (o : EvalOutcome) : (s.endEvaluate o).palette = s.palette := rfl
@[simp] theorem endEvaluate_consoleOut (s : State) (o : EvalOutcome) : (s.endEvaluate o).consoleOut = s.consoleOut := rfl
@[simp] theorem endEvaluate_diagnostics (s : State) (o : EvalOutcome) : (s.endEvaluate o).diagnostics = s.diagnostics := rfl
@[simp] theorem endEvaluate_outcome (s : State) (o : EvalOutcome) : (s.endEvaluate o).outcome = some o := rfl
@[simp] theorem endEvaluate_running (s : State) (o : EvalOutcome) : (s.endEvaluate o).running = false := rfl
@[simp] theorem endEvaluate_loadOpen (s : State) (o : EvalOutcome) : (s.endEvaluate o).loadOpen = s.loadOpen := rfl
@[simp] theorem endEvaluate_stack (s : State) (o : EvalOutcome) (id : StackId) : (s.endEvaluate o).stack id = s.stack id := by
  cases id <;> rfl

/-! ### enterEvaluate -/

@[simp] theorem enterEvaluate_cfg (s : State) (v : Word) : (s.enterEvaluate v).cfg = s.cfg := rfl
@[simp] theorem enterEvaluate_ram (s : State) (v : Word) : (s.enterEvaluate v).ram = s.ram := rfl
@[simp] theorem enterEvaluate_wst (s : State) (v : Word) : (s.enterEvaluate v).wst = s.wst := rfl
@[simp] theorem enterEvaluate_rst (s : State) (v : Word) : (s.enterEvaluate v).rst = s.rst := rfl
@[simp] theorem enterEvaluate_dev (s : State) (v : Word) : (s.enterEvaluate v).dev = s.dev := rfl
@[simp] theorem enterEvaluate_pc (s : State) (v : Word) : (s.enterEvaluate v).pc = v := rfl
@[simp] theorem enterEvaluate_keep (s : State) (v : Word) : (s.enterEvaluate v).keep = false := rfl
@[simp] theorem enterEvaluate_ret (s : State) (v : Word) : (s.enterEvaluate v).ret = false := rfl
@[simp] theorem enterEvaluate_short (s : State) (v : Word) : (s.enterEvaluate v).short = false := rfl
@[simp] theorem enterEvaluate_kptr (s : State) (v : Word) : (s.enterEvaluate v).kptr = none := rfl
@[simp] theorem enterEvaluate_current (s : State) (v : Word) : (s.enterEvaluate v).current = none := rfl
@[simp] theorem enterEvaluate_budget (s : State) (v : Word) : (s.enterEvaluate v).budget = s.cfg.budget := rfl
@[simp] theorem enterEvaluate_screen (s : State) (v : Word) : (s.enterEvaluate v).screen = s.screen := rfl
@[simp] theorem enterEvaluate_palette (s : State) (v : Word) : (s.enterEvaluate v).palette = s.palette := rfl
@[simp] theorem enterEvaluate_consoleOut (s : State) (v : Word) : (s.enterEvaluate v).consoleOut = s.consoleOut := rfl
@[simp] theorem enterEvaluate_diagnostics (s : State) (v : Word) : (s.enterEvaluate v).diagnostics = s.diagnostics := rfl
@[simp] theorem enterEvaluate_outcome (s : State) (v : Word) : (s.enterEvaluate v).outcome = s.outcome := rfl
@[simp] theorem enterEvaluate_running (s : State) (v : Word) : (s.enterEvaluate v).running = true := rfl
@[simp] theorem enterEvaluate_loadOpen (s : State) (v : Word) : (s.enterEvaluate v).loadOpen = false := rfl
@[simp] theorem enterEvaluate_stack (s : State) (v : Word) (id : StackId) : (s.enterEvaluate v).stack id = s.stack id := by
  cases id <;> rfl

/-! ### Fields read through accessors -/

@[simp] theorem setStack_opcode (s : State) (id : StackId) (st : Stack) : (s.setStack id st).opcode = s.opcode := by
  cases id <;> rfl
@[simp] theorem setStack_opAddr (s : State) (id : StackId) (st : Stack) : (s.setStack id st).opAddr = s.opAddr := by
  cases id <;> rfl
@[simp] theorem decoded_opcode (s : State) (b : Byte) : (s.decoded b).opcode = b := rfl
@[simp] theorem decoded_opAddr (s : State) (b : Byte) : (s.decoded b).opAddr = s.pc - 1 := rfl
@[simp] theorem setPc_opcode (s : State) (v : Word) : (s.setPc v).opcode = s.opcode := rfl
@[simp] theorem setPc_opAddr (s : State) (v : Word) : (s.setPc v).opAddr = s.opAddr := rfl
@[simp] theorem setRamByte_opAddr (s : State) (a : Word) (v : Byte) : (s.setRamByte a v).opAddr = s.opAddr := rfl
@[simp] theorem setDevByte_opAddr (s : State) (p v : Byte) : (s.setDevByte p v).opAddr = s.opAddr := rfl
@[simp] theorem setDevShort_opAddr (s : State) (p : Byte) (v : Word) : (s.setDevShort p v).opAddr = s.opAddr := rfl
theorem opAddr_of_current (s : State) (c : Current) (h : s.current = some c) : s.opAddr = c.address := by
  unfold State.opAddr; rw [h]

@[simp] theorem setStack_ramByte (s : State) (id : StackId) (st : Stack) (a : Word) :
    (s.setStack id st).ramByte a = s.ramByte a := by
  cases id <;> rfl
@[simp] theorem setStack_devByte (s : State) (id : StackId) (st : Stack) (p : Byte) :
    (s.setStack id st).devByte p = s.devByte p := by
  cases id <;> rfl
@[simp] theorem setDevByte_ramByte (s : State) (p v : Byte) (a : Word) : (s.setDevByte p v).ramByte a = s.ramByte a := rfl
@[simp] theorem setRamByte_devByte (s : State) (a : Word) (v p : Byte) : (s.setRamByte a v).devByte p = s.devByte p := rfl
@[simp] theorem endEvaluate_devByte (s : State) (o : EvalOutcome) (p : Byte) : (s.endEvaluate o).devByte p = s.devByte p := rfl

end Sys2Proof.Machine
end

