-- ==== Sys2Proof/Laws/Memory.lean ====
section
/-! SUPPORT. The laws of the sparse regions: read after write, the canonical form and its preservation, and that equal contents are
equal data; then those of RAM and of the device page. -/
namespace Sys2Proof.Machine

variable {α : Type} [DecidableEq α]

theorem read_of_wfFrom (dflt : α) (m : Cells α) (lo a : Nat) (h : Cells.wfFrom dflt lo m = true) (ha : a < lo) :
    Cells.read dflt m a = dflt := by
  induction m generalizing lo with
  | nil => rfl
  | cons c rest ih =>
    simp only [Cells.wfFrom, Bool.and_eq_true, decide_eq_true_eq] at h
    simp only [Cells.read]
    rw [if_neg (by omega)]
    exact ih (c.1 + 1) h.2 (by omega)

theorem wfFrom_mono (dflt : α) (m : Cells α) (lo lo' : Nat) (h : Cells.wfFrom dflt lo m = true) (hl : lo' ≤ lo) :
    Cells.wfFrom dflt lo' m = true := by
  cases m with
  | nil => rfl
  | cons c rest =>
    simp only [Cells.wfFrom, Bool.and_eq_true, decide_eq_true_eq] at h ⊢
    exact ⟨⟨by omega, h.1.2⟩, h.2⟩

theorem wfFrom_write (dflt : α) (m : Cells α) (lo a : Nat) (v : α) (h : Cells.wfFrom dflt lo m = true) (ha : lo ≤ a) :
    Cells.wfFrom dflt lo (Cells.write dflt m a v) = true := by
  induction m generalizing lo with
  | nil =>
    by_cases hv : v = dflt <;> simp [Cells.write, Cells.wfFrom, hv, ha]
  | cons c rest ih =>
    simp only [Cells.wfFrom, Bool.and_eq_true, decide_eq_true_eq] at h
    obtain ⟨⟨h1, h2⟩, h3⟩ := h
    simp only [Cells.write]
    split_ifs with hab hv he hv
    · simp [Cells.wfFrom, h1, h2, h3]
    · simp only [Cells.wfFrom, Bool.and_eq_true, decide_eq_true_eq]
      exact ⟨⟨ha, hv⟩, ⟨by omega, h2⟩, h3⟩
    · exact wfFrom_mono dflt rest _ _ h3 (by omega)
    · subst he
      simp only [Cells.wfFrom, Bool.and_eq_true, decide_eq_true_eq]
      exact ⟨⟨ha, hv⟩, h3⟩
    · simp only [Cells.wfFrom, Bool.and_eq_true, decide_eq_true_eq]
      exact ⟨⟨h1, h2⟩, ih (c.1 + 1) h3 (by omega)⟩

/-- A write keeps the canonical form. -/
theorem wf_write (dflt : α) (m : Cells α) (a : Nat) (v : α) (h : Cells.wf dflt m = true) :
    Cells.wf dflt (Cells.write dflt m a v) = true := wfFrom_write dflt m 0 a v h (Nat.zero_le a)

theorem mem_write (dflt : α) (m : Cells α) (a : Nat) (v : α) (c : Nat × α) (h : c ∈ Cells.write dflt m a v) :
    c ∈ m ∨ c = (a, v) := by
  induction m with
  | nil => by_cases hv : v = dflt <;> simp_all [Cells.write]
  | cons d rest ih =>
    simp only [Cells.write] at h
    split_ifs at h with h1 h2 h3 h4
    · exact .inl h
    · rcases List.mem_cons.1 h with h | h
      · exact .inr h
      · exact .inl h
    · exact .inl (List.mem_cons_of_mem _ h)
    · rcases List.mem_cons.1 h with h | h
      · exact .inr h
      · exact .inl (List.mem_cons_of_mem _ h)
    · rcases List.mem_cons.1 h with h | h
      · exact .inl (h ▸ List.mem_cons_self)
      · exact (ih h).imp (List.mem_cons_of_mem _) id

/-- A write below `n` keeps every listed index below `n`. -/
theorem below_write (dflt : α) (m : Cells α) (n a : Nat) (v : α) (h : Cells.below n m = true) (ha : a < n) :
    Cells.below n (Cells.write dflt m a v) = true := by
  simp only [Cells.below, List.all_eq_true, decide_eq_true_eq] at h ⊢
  intro c hc
  rcases mem_write dflt m a v c hc with hc | rfl
  · exact h c hc
  · exact ha

/-- A read after a write, in the canonical form: the value written at that index, every other index as it was. -/
theorem read_write_from (dflt : α) (m : Cells α) (lo a b : Nat) (v : α) (h : Cells.wfFrom dflt lo m = true) :
    Cells.read dflt (Cells.write dflt m a v) b = if b = a then v else Cells.read dflt m b := by
  induction m generalizing lo with
  | nil =>
    by_cases hv : v = dflt <;> by_cases hb : b = a <;> simp [Cells.write, Cells.read, hv, hb]
  | cons c rest ih =>
    simp only [Cells.wfFrom, Bool.and_eq_true, decide_eq_true_eq] at h
    obtain ⟨⟨h1, h2⟩, h3⟩ := h
    have hrest : ∀ x, x < c.1 + 1 → Cells.read dflt rest x = dflt := fun x hx => read_of_wfFrom dflt rest _ x h3 hx
    rcases Nat.lt_trichotomy a c.1 with hac | hac | hac
    · have hnc : Cells.read dflt (c :: rest) a = dflt := by
        simp only [Cells.read]
        rw [if_neg (by omega), hrest a (by omega)]
      by_cases hv : v = dflt
      · simp only [Cells.write, if_pos hac, if_pos hv]
        by_cases hb : b = a
        · rw [if_pos hb, hb, hnc, hv]
        · rw [if_neg hb]
      · simp only [Cells.write, if_pos hac, if_neg hv]
        rfl
    · by_cases hv : v = dflt
      · simp only [Cells.write, if_neg (show ¬ a < c.1 by omega), if_pos hac, if_pos hv]
        by_cases hb : b = a
        · rw [if_pos hb, hrest b (by omega), hv]
        · simp only [Cells.read]
          rw [if_neg hb, if_neg (by omega)]
      · simp only [Cells.write, if_neg (show ¬ a < c.1 by omega), if_pos hac, if_neg hv, Cells.read]
        by_cases hb : b = a
        · rw [if_pos hb, if_pos hb]
        · rw [if_neg hb, if_neg hb, if_neg (by omega)]
    · simp only [Cells.write, if_neg (show ¬ a < c.1 by omega), if_neg (show ¬ a = c.1 by omega), Cells.read]
      rw [ih _ h3]
      by_cases hb : b = c.1
      · rw [if_pos hb, if_neg (by omega), if_pos hb]
      · rw [if_neg hb, if_neg hb]

theorem read_write (dflt : α) (m : Cells α) (a b : Nat) (v : α) (h : Cells.wf dflt m = true) :
    Cells.read dflt (Cells.write dflt m a v) b = if b = a then v else Cells.read dflt m b :=
  read_write_from dflt m 0 a b v h

/-- Two regions in canonical form with equal contents are equal. -/
theorem cells_ext_from (dflt : α) (m m' : Cells α) (lo : Nat) (h : Cells.wfFrom dflt lo m = true)
    (h' : Cells.wfFrom dflt lo m' = true) (he : ∀ a, Cells.read dflt m a = Cells.read dflt m' a) : m = m' := by
  induction m generalizing m' lo with
  | nil =>
    cases m' with
    | nil => rfl
    | cons c rest =>
      simp only [Cells.wfFrom, Bool.and_eq_true, decide_eq_true_eq] at h'
      have := he c.1
      simp only [Cells.read, if_true] at this
      exact absurd this.symm h'.1.2
  | cons c rest ih =>
    simp only [Cells.wfFrom, Bool.and_eq_true, decide_eq_true_eq] at h
    obtain ⟨⟨h1, h2⟩, h3⟩ := h
    cases m' with
    | nil =>
      have := he c.1
      simp only [Cells.read, if_true] at this
      exact absurd this h2
    | cons d rest' =>
      simp only [Cells.wfFrom, Bool.and_eq_true, decide_eq_true_eq] at h'
      obtain ⟨⟨h1', h2'⟩, h3'⟩ := h'
      have hcd : c.1 = d.1 := by
        rcases Nat.lt_trichotomy c.1 d.1 with hl | hl | hl
        · have := he c.1
          simp only [Cells.read, if_true] at this
          rw [if_neg (by omega), read_of_wfFrom dflt rest' _ _ h3' (by omega)] at this
          exact absurd this h2
        · exact hl
        · have := he d.1
          simp only [Cells.read, if_true] at this
          rw [if_neg (by omega), read_of_wfFrom dflt rest _ _ h3 (by omega)] at this
          exact absurd this.symm h2'
      have hv : c.2 = d.2 := by
        have := he c.1
        simpa only [Cells.read, if_true, if_pos hcd] using this
      obtain ⟨c1, c2⟩ := c
      obtain ⟨d1, d2⟩ := d
      simp only at hcd hv
      subst hcd; subst hv
      congr 1
      apply ih rest' (c1 + 1) h3 h3'
      intro a
      by_cases ha : a = c1
      · subst ha
        rw [read_of_wfFrom dflt rest _ _ h3 (by omega), read_of_wfFrom dflt rest' _ _ h3' (by omega)]
      · have := he a
        simpa only [Cells.read, if_neg ha] using this

theorem cells_ext (dflt : α) (m m' : Cells α) (h : Cells.wf dflt m = true) (h' : Cells.wf dflt m' = true)
    (he : ∀ a, Cells.read dflt m a = Cells.read dflt m' a) : m = m' := cells_ext_from dflt m m' 0 h h' he

/-- Writing the value an index already reads changes nothing. -/
theorem write_same (dflt : α) (m : Cells α) (a : Nat) (v : α) (h : Cells.wf dflt m = true)
    (hv : Cells.read dflt m a = v) : Cells.write dflt m a v = m := by
  apply cells_ext dflt _ _ (wf_write dflt m a v h) h
  intro b
  rw [read_write dflt m a b v h]
  split_ifs with hb
  · rw [hb, hv]
  · rfl

/-! ### RAM -/

theorem memory_wf_iff (m : List Host.Cell) :
    Memory.wf m = true ↔ Cells.wf 0 m = true ∧ Cells.below ramSize m = true := by
  rw [Memory.wf, Bool.and_eq_true]

/-- A byte store keeps RAM's canonical form. -/
theorem setRamByte_wf (s : State) (a : Word) (v : Byte) (h : Memory.wf s.ram = true) :
    Memory.wf (s.setRamByte a v).ram = true := by
  rw [memory_wf_iff] at h ⊢
  exact ⟨wf_write 0 _ _ _ h.1, below_write 0 _ _ _ _ h.2 (by have := a.isLt; simpa [ramSize] using this)⟩

/-- A store of either width keeps RAM's canonical form. -/
theorem memWrite_wf (s : State) (wide : Bool) (a v : Word) (h : Memory.wf s.ram = true) :
    Memory.wf (s.memWrite wide a v).ram = true := by
  unfold State.memWrite
  split
  · exact setRamByte_wf _ _ _ (setRamByte_wf _ _ _ h)
  · exact setRamByte_wf _ _ _ h

/-- The load of an image keeps RAM's canonical form. -/
theorem storeBytes_wf (s : State) (a : Word) (image : List Byte) (h : Memory.wf s.ram = true) :
    Memory.wf (s.storeBytes a image).ram = true := by
  induction image generalizing s a with
  | nil => exact h
  | cons v rest ih => exact ih _ _ (setRamByte_wf s a v h)

/-- RAM's canonical form holds at reset. -/
theorem reset_memory_wf : Memory.wf State.reset.ram = true := rfl

/-- One byte of RAM after a byte store. -/
theorem ramByte_setRamByte (s : State) (a b : Word) (v : Byte) (h : Memory.wf s.ram = true) :
    (s.setRamByte a v).ramByte b = if b = a then v else s.ramByte b := by
  rw [State.ramByte, State.ramByte, setRamByte_ram, read_write _ _ _ _ _ ((memory_wf_iff _).1 h).1]
  simp only [BitVec.toNat_inj]

theorem word_add_one_ne (a : Word) : a + 1 ≠ a := by
  intro h
  have h2 := congrArg BitVec.toNat h
  have h1 : (1 : Word).toNat = 1 := rfl
  rw [BitVec.toNat_add, h1] at h2
  omega

/-- One byte of RAM after a store of either width (20_memory R57). -/
theorem ramByte_memWrite (s : State) (wide : Bool) (a b v : Word) (h : Memory.wf s.ram = true) :
    (s.memWrite wide a v).ramByte b =
      if wide = true ∧ b = a + 1 then lowByte v
      else if b = a then (if wide then highByte v else lowByte v) else s.ramByte b := by
  unfold State.memWrite
  cases wide
  · simp [ramByte_setRamByte _ _ _ _ h]
  · simp [ramByte_setRamByte _ _ _ _ (setRamByte_wf s a _ h), ramByte_setRamByte _ _ _ _ h]

/-- A store changes only RAM. -/
theorem memWrite_eq (s : State) (wide : Bool) (a v : Word) :
    s.memWrite wide a v = { s with ram := (s.memWrite wide a v).ram } := by
  unfold State.memWrite
  split <;> rfl

/-! ### The device page -/

/-- One byte of the device page after a byte store. -/
theorem devByte_setDevByte (s : State) (p q v : Byte) (h : Cells.wf 0 s.dev = true) :
    (s.setDevByte p v).devByte q = if q = p then v else s.devByte q := by
  rw [State.devByte, State.devByte, setDevByte_dev, read_write _ _ _ _ _ h]
  simp only [BitVec.toNat_inj]

theorem setDevByte_wf (s : State) (p v : Byte) (h : Cells.wf 0 s.dev = true) :
    Cells.wf 0 (s.setDevByte p v).dev = true := wf_write 0 _ _ _ h

theorem setDevByte_below (s : State) (p v : Byte) (h : Cells.below portCount s.dev = true) :
    Cells.below portCount (s.setDevByte p v).dev = true :=
  below_write 0 _ _ _ _ h (by have := p.isLt; simpa [portCount] using this)

end Sys2Proof.Machine
end

