-- ==== Sys2Proof/Laws/Stack.lean ====
section
/-! SUPPORT. The stack engine's primitives, each said once. A pop reads below the cursor (the depth counter, or in keep mode the
keep pointer) and moves it down; a run of pushes writes bytes from the real depth on. `popPush` is what most instructions come
to, and `runForm_popPush` says in one place where it completes, underflows and overflows. -/
namespace Sys2Proof.Machine

/-! ### Sequencing -/

@[simp] theorem done_bind {α β : Type} (a : α) (s : State) (f : α → State → Res β) : (Res.done a s).bind f = f a s := rfl

@[simp] theorem raised_bind {α β : Type} (e : Fatal) (s : State) (f : α → State → Res β) :
    (Res.raised e s : Res α).bind f = .raised e s := rfl

theorem bind_ite {α β : Type} (c : Prop) [Decidable c] (x y : Res α) (f : α → State → Res β) :
    (if c then x else y).bind f = if c then x.bind f else y.bind f := by
  split <;> rfl

/-! ### The cursor -/

/-- How many bytes the next pop finds. -/
def State.cursor (s : State) : Nat :=
  if s.keep then (s.kptr.getD (s.stack s.active).ptr).toNat else (s.stack s.active).ptr.toNat

/-- The state whose next pop finds `c` bytes. -/
def State.withCursor (s : State) (c : Nat) : State :=
  if s.keep then { s with kptr := some (BitVec.ofNat 8 c) }
  else s.setStack s.active { s.stack s.active with ptr := BitVec.ofNat 8 c }

theorem cursor_le (s : State) : s.cursor ≤ 255 := by
  unfold State.cursor
  split
  · have := (s.kptr.getD (s.stack s.active).ptr).isLt; omega
  · have := (s.stack s.active).ptr.isLt; omega

@[simp] theorem setStack_active (s : State) (id : StackId) (st : Stack) : (s.setStack id st).active = s.active := by
  simp [State.active]

@[simp] theorem setStack_other (s : State) (id : StackId) (st : Stack) : (s.setStack id st).other = s.other := by
  simp [State.other]

@[simp] theorem withCursor_keep (s : State) (c : Nat) : (s.withCursor c).keep = s.keep := by
  unfold State.withCursor; split <;> simp

@[simp] theorem withCursor_short (s : State) (c : Nat) : (s.withCursor c).short = s.short := by
  unfold State.withCursor; split <;> simp

@[simp] theorem withCursor_ret (s : State) (c : Nat) : (s.withCursor c).ret = s.ret := by
  unfold State.withCursor; split <;> simp

@[simp] theorem withCursor_active (s : State) (c : Nat) : (s.withCursor c).active = s.active := by
  simp [State.active]

@[simp] theorem withCursor_other (s : State) (c : Nat) : (s.withCursor c).other = s.other := by
  simp [State.other]

@[simp] theorem withCursor_pc (s : State) (c : Nat) : (s.withCursor c).pc = s.pc := by
  unfold State.withCursor; split <;> simp

@[simp] theorem withCursor_ram (s : State) (c : Nat) : (s.withCursor c).ram = s.ram := by
  unfold State.withCursor; split <;> simp

@[simp] theorem withCursor_dev (s : State) (c : Nat) : (s.withCursor c).dev = s.dev := by
  unfold State.withCursor; split <;> simp

@[simp] theorem withCursor_current (s : State) (c : Nat) : (s.withCursor c).current = s.current := by
  unfold State.withCursor; split <;> simp

@[simp] theorem withCursor_opcode (s : State) (c : Nat) : (s.withCursor c).opcode = s.opcode := by
  unfold State.withCursor
  split
  · rfl
  · simp

@[simp] theorem withCursor_opAddr (s : State) (c : Nat) : (s.withCursor c).opAddr = s.opAddr := by
  unfold State.withCursor
  split
  · rfl
  · simp

@[simp] theorem withCursor_memRead (s : State) (c : Nat) (wide : Bool) (a : Word) :
    (s.withCursor c).memRead wide a = s.memRead wide a := by
  simp [State.memRead, State.ramByte]

@[simp] theorem withCursor_devRead (s : State) (c : Nat) (wide : Bool) (p : Byte) :
    (s.withCursor c).devRead wide p = s.devRead wide p := by
  simp [State.devRead, State.devShort, State.devByte]

@[simp] theorem withCursor_relative (s : State) (c : Nat) (d : Byte) : (s.withCursor c).relative d = s.relative d := by
  simp [State.relative]

@[simp] theorem withCursor_resolve (s : State) (c : Nat) (t : Word) : (s.withCursor c).resolve t = s.resolve t := by
  simp [State.resolve]

@[simp] theorem withCursor_dat (s : State) (c : Nat) : ((s.withCursor c).stack s.active).dat = (s.stack s.active).dat := by
  unfold State.withCursor; split
  · cases s.active <;> rfl
  · simp

@[simp] theorem withCursor_cell (s : State) (c i : Nat) :
    ((s.withCursor c).stack s.active).cell i = (s.stack s.active).cell i := by
  simp [Stack.cell]

@[simp] theorem withCursor_item (s : State) (c d : Nat) (wide : Bool) :
    ((s.withCursor c).stack s.active).item wide d = (s.stack s.active).item wide d := by
  simp [Stack.item]

theorem active_ne_other (s : State) : s.active ≠ s.other := by
  unfold State.active State.other; split <;> simp

@[simp] theorem withCursor_stack_other (s : State) (c : Nat) : (s.withCursor c).stack s.other = s.stack s.other := by
  unfold State.withCursor; split
  · cases s.other <;> rfl
  · exact stack_setStack_ne _ _ _ _ (active_ne_other s)

theorem cursor_withCursor (s : State) (c : Nat) (h : c ≤ 255) : (s.withCursor c).cursor = c := by
  unfold State.cursor
  rw [withCursor_keep, withCursor_active]
  cases hk : s.keep
  · simp only [State.withCursor, hk, Bool.false_eq_true, if_false, stack_setStack_same, BitVec.toNat_ofNat]
    omega
  · simp only [State.withCursor, hk, if_true, Option.getD_some, BitVec.toNat_ofNat]
    omega

@[simp] theorem withCursor_withCursor (s : State) (c d : Nat) : (s.withCursor c).withCursor d = s.withCursor d := by
  cases hk : s.keep
  · rw [State.withCursor, withCursor_keep, withCursor_active]
    simp only [State.withCursor, hk, Bool.false_eq_true, if_false, stack_setStack_same, setStack_setStack]
  · rw [State.withCursor, withCursor_keep]
    simp only [State.withCursor, hk, if_true]

/-! ### Pops -/

/-- `Pop8(act)` (20_memory R63): the byte below the cursor, which moves down by one; with nothing there it raises. -/
theorem popByte_eq (s : State) :
    popByte s = if s.cursor < 1 then .raised ⟨.stackUnderflow, s.active⟩ (s.withCursor 0)
      else .done ((s.stack s.active).cell (s.cursor - 1)) (s.withCursor (s.cursor - 1)) := by
  have key : ∀ b : Byte, b ≠ 0 → (b - 1).toNat = b.toNat - 1 ∧ b - 1 = BitVec.ofNat 8 (b.toNat - 1) := by
    intro b hb
    have h0 : b.toNat ≠ 0 := fun h => hb (BitVec.eq_of_toNat_eq h)
    have h1 : (b - 1).toNat = b.toNat - 1 := by
      have := b.isLt
      have e : (1 : Byte).toNat = 1 := rfl
      rw [BitVec.toNat_sub, e]
      omega
    refine ⟨h1, BitVec.eq_of_toNat_eq ?_⟩
    rw [h1, BitVec.toNat_ofNat]
    have := b.isLt
    omega
  have zero : ∀ b : Byte, b.toNat < 1 ↔ b = 0 := by
    intro b
    constructor
    · intro h; exact BitVec.eq_of_toNat_eq (by have e : (0 : Byte).toNat = 0 := rfl; omega)
    · rintro rfl; decide
  unfold popByte pop8 State.cursor State.withCursor
  cases hk : s.keep
  · simp only [Bool.false_eq_true, if_false, zero]
    split
    · rename_i h
      rw [show (BitVec.ofNat 8 0 : Byte) = (s.stack s.active).ptr from h.symm]
      rw [show ({ s.stack s.active with ptr := (s.stack s.active).ptr } : Stack) = s.stack s.active from rfl, setStack_stack]
    · rename_i h
      rw [(key _ h).1, ← (key _ h).2]
  · simp only [if_true, zero]
    split
    · rename_i h; rw [h]; rfl
    · rename_i h
      rw [(key _ h).1, ← (key _ h).2]

theorem popByte_bind {β : Type} (s : State) (f : Byte → State → Res β) :
    (popByte s).bind f = if s.cursor < 1 then .raised ⟨.stackUnderflow, s.active⟩ (s.withCursor 0)
      else f ((s.stack s.active).cell (s.cursor - 1)) (s.withCursor (s.cursor - 1)) := by
  rw [popByte_eq, bind_ite]; rfl

/-- `Pop16(act)` (20_memory R65). -/
theorem popShort_eq (s : State) :
    popShort s = if s.cursor < 2 then .raised ⟨.stackUnderflow, s.active⟩ (s.withCursor 0)
      else .done ((s.stack s.active).item true s.cursor) (s.withCursor (s.cursor - 2)) := by
  have hc := cursor_le s
  change (popByte s).bind (fun lo t => (pop8 s.active t).bind fun hi u => .done (shortOf hi lo) u) = _
  rw [popByte_bind]
  by_cases h1 : s.cursor < 1
  · rw [if_pos h1, if_pos (by omega)]
  · rw [if_neg h1]
    have e : pop8 s.active (s.withCursor (s.cursor - 1)) = popByte (s.withCursor (s.cursor - 1)) := by
      rw [popByte, withCursor_active]
    rw [e, popByte_bind, cursor_withCursor s _ (by omega)]
    by_cases h2 : s.cursor < 2
    · rw [if_pos h2, if_pos (by omega)]; simp
    · rw [if_neg h2, if_neg (by omega)]
      simp only [withCursor_active, withCursor_cell, withCursor_withCursor, Stack.item, if_true]
      rw [show s.cursor - 1 - 1 = s.cursor - 2 by omega]

theorem popShort_bind {β : Type} (s : State) (f : Word → State → Res β) :
    (popShort s).bind f = if s.cursor < 2 then .raised ⟨.stackUnderflow, s.active⟩ (s.withCursor 0)
      else f ((s.stack s.active).item true s.cursor) (s.withCursor (s.cursor - 2)) := by
  rw [popShort_eq, bind_ite]; rfl

/-- w/8 in the mode a state holds. -/
def State.size (s : State) : Nat := if s.short then 2 else 1

@[simp] theorem withCursor_size (s : State) (c : Nat) : (s.withCursor c).size = s.size := by
  simp [State.size]

theorem size_pos (s : State) : 1 ≤ s.size := by
  unfold State.size; split <;> omega

theorem size_le (s : State) : s.size ≤ 2 := by
  unfold State.size; split <;> omega

/-- `Pop()` (20_memory R66): the item below the cursor. -/
theorem pop_bind {β : Type} (s : State) (f : Word → State → Res β) :
    (pop s).bind f = if s.cursor < s.size then .raised ⟨.stackUnderflow, s.active⟩ (s.withCursor 0)
      else f ((s.stack s.active).item s.short s.cursor) (s.withCursor (s.cursor - s.size)) := by
  unfold pop State.size
  cases hs : s.short
  · simp only [Bool.false_eq_true, if_false]
    rw [popByte_bind, bind_ite]
    rfl
  · simp only [if_true]
    exact popShort_bind s f

/-! ### Pushes -/

/-- The bytes pushed one after another. -/
def pushAll (id : StackId) (bytes : List Byte) (s : State) : Res Unit :=
  match bytes with
  | [] => .done () s
  | b :: rest => (push8 id b s).bind fun _ s => pushAll id rest s

theorem pushed_stored (st : Stack) (v : Byte) (rest : List Byte) (h : st.ptr.toNat < 255) :
    (st.pushed v).stored (st.pushed v).ptr.toNat rest = st.stored st.ptr.toNat (v :: rest) := by
  have e : (st.pushed v).ptr.toNat = st.ptr.toNat + 1 := by
    simp only [Stack.pushed, BitVec.toNat_add]
    have e1 : (1 : Byte).toNat = 1 := rfl
    omega
  rw [e]
  simp only [Stack.stored, Stack.pushed, writeBytes, List.length_cons]
  congr 2
  omega

theorem stored_nil (st : Stack) : st.stored st.ptr.toNat [] = st := by
  have : BitVec.ofNat 8 st.ptr.toNat = st.ptr := BitVec.eq_of_toNat_eq (by
    rw [BitVec.toNat_ofNat]; have := st.ptr.isLt; omega)
  simp only [Stack.stored, writeBytes, List.length_nil, Nat.add_zero, this]

/-- A run of pushes (20_memory R62): all bytes are written, or those that fit are written and it raises. -/
theorem pushAll_eq (id : StackId) (bytes : List Byte) (s : State) :
    pushAll id bytes s =
      if (s.stack id).ptr.toNat + bytes.length ≤ 255 then
        .done () (s.setStack id ((s.stack id).stored (s.stack id).ptr.toNat bytes))
      else .raised ⟨.stackOverflow, id⟩
        (s.setStack id ((s.stack id).stored (s.stack id).ptr.toNat (bytes.take (255 - (s.stack id).ptr.toNat)))) := by
  induction bytes generalizing s with
  | nil =>
    have := (s.stack id).ptr.isLt
    rw [if_pos (by simp only [List.length_nil]; omega), stored_nil, setStack_stack]
    rfl
  | cons b rest ih =>
    unfold pushAll push8
    have hlt := (s.stack id).ptr.isLt
    by_cases h : (s.stack id).ptr = 255
    · have h' : (s.stack id).ptr.toNat = 255 := by rw [h]; rfl
      rw [if_pos h, raised_bind, if_neg (by simp only [List.length_cons]; omega)]
      rw [show 255 - (s.stack id).ptr.toNat = 0 by omega, List.take_zero, stored_nil, setStack_stack]
    · have h' : (s.stack id).ptr.toNat < 255 := by
        have : (s.stack id).ptr.toNat ≠ 255 := fun hh => h (BitVec.eq_of_toNat_eq hh)
        omega
      rw [if_neg h, done_bind, ih, stack_setStack_same, setStack_setStack, setStack_setStack,
        pushed_stored _ _ _ h', pushed_stored _ _ _ h']
      have e : ((s.stack id).pushed b).ptr.toNat = (s.stack id).ptr.toNat + 1 := by
        simp only [Stack.pushed, BitVec.toNat_add]
        have e1 : (1 : Byte).toNat = 1 := rfl
        omega
      rw [e, List.length_cons]
      rw [show 255 - (s.stack id).ptr.toNat = (255 - ((s.stack id).ptr.toNat + 1)) + 1 by omega, List.take_succ_cons]
      by_cases hr : (s.stack id).ptr.toNat + 1 + rest.length ≤ 255
      · rw [if_pos hr, if_pos (by omega)]
      · rw [if_neg hr, if_neg (by omega)]

theorem pushAll_append (id : StackId) (xs ys : List Byte) (s : State) :
    (pushAll id xs s).bind (fun _ t => pushAll id ys t) = pushAll id (xs ++ ys) s := by
  induction xs generalizing s with
  | nil => rfl
  | cons x rest ih =>
    simp only [pushAll, List.cons_append]
    cases push8 id x s with
    | done a t => exact ih t
    | raised e t => rfl

theorem push16_eq (id : StackId) (v : Word) (s : State) : push16 id v s = pushAll id (itemBytes true v) s := by
  simp only [push16, itemBytes, if_true, pushAll]
  cases push8 id (highByte v) s with
  | done a t =>
    simp only [done_bind]
    cases push8 id (lowByte v) t <;> rfl
  | raised e t => rfl

theorem push8_eq (id : StackId) (v : Byte) (s : State) : push8 id v s = pushAll id [v] s := by
  simp only [pushAll]
  cases push8 id v s <;> rfl

theorem push_eq (v : Word) (s : State) : push v s = pushAll s.active (itemBytes s.short v) s := by
  unfold push
  cases hs : s.short
  · simp only [Bool.false_eq_true, if_false, pushByte, itemBytes]; exact push8_eq _ _ _
  · simp only [if_true]; exact push16_eq _ _ _

theorem pushDst_eq (v : Word) (s : State) : pushDst v s = pushAll s.other (itemBytes s.short v) s := by
  unfold pushDst
  cases hs : s.short
  · simp only [Bool.false_eq_true, if_false, itemBytes]; exact push8_eq _ _ _
  · simp only [if_true]; exact push16_eq _ _ _

/-- A push leaves the modes, and so which stack is active, as they were. -/
theorem pushAll_modes (id : StackId) (bytes : List Byte) (s t : State) (h : pushAll id bytes s = .done () t) :
    t.active = s.active ∧ t.short = s.short := by
  rw [pushAll_eq] at h
  split at h
  · cases h; simp
  · cases h

/-- A push after a run of pushes joins it. -/
theorem pushAll_push (v : Word) (bytes : List Byte) (s : State) :
    (pushAll s.active bytes s).bind (fun _ t => push v t) = pushAll s.active (bytes ++ itemBytes s.short v) s := by
  rw [← pushAll_append]
  cases h : pushAll s.active bytes s with
  | done a t =>
    obtain ⟨h1, h2⟩ := pushAll_modes _ _ _ _ h
    simp only [done_bind]
    rw [push_eq, h1, h2]
  | raised e t => rfl

/-! ### Pops, then pushes -/

/-- Pops `pops` bytes and pushes `out`, both on the active stack. -/
def popPush (pops : Nat) (out : List Byte) (s : State) : Res Unit :=
  if s.cursor < pops then .raised ⟨.stackUnderflow, s.active⟩ (s.withCursor 0)
  else pushAll s.active out (s.withCursor (s.cursor - pops))

/-- The cursor at the start of an instruction is the depth of its active stack. -/
theorem cursor_decoded (s : State) (i : Instr) :
    (s.decoded i.opcode).cursor = (s.stack i.act).ptr.toNat ∧ (s.decoded i.opcode).active = i.act ∧
      (s.decoded i.opcode).short = i.short ∧ (s.decoded i.opcode).size = i.size ∧
      (s.decoded i.opcode).other = i.oth ∧ (s.decoded i.opcode).keep = i.keep := by
  have ha : (s.decoded i.opcode).active = i.act := rfl
  refine ⟨?_, ha, rfl, rfl, rfl, rfl⟩
  unfold State.cursor
  rw [ha, decoded_stack, decoded_kptr, Option.getD_none]
  split <;> rfl

theorem decoded_eq_afterModes (s : State) (i : Instr) : { s.decoded i.opcode with current := none } = s.afterModes i := rfl

/-- The real depth of the active stack after the pops is where the pushes start. -/
theorem ptr_withCursor (s : State) (i : Instr) (pops : Nat) (h : pops ≤ (s.stack i.act).ptr.toNat) :
    (((s.decoded i.opcode).withCursor ((s.stack i.act).ptr.toNat - pops)).stack i.act).ptr.toNat = pushBase i s pops := by
  have hlt := (s.stack i.act).ptr.isLt
  have ha : (s.decoded i.opcode).active = i.act := rfl
  unfold State.withCursor pushBase
  rw [ha, decoded_keep]
  cases hk : i.keep
  · rw [show keepBit i.opcode = false from hk]
    simp only [Bool.false_eq_true, if_false, stack_setStack_same, BitVec.toNat_ofNat]
    omega
  · rw [show keepBit i.opcode = true from hk]
    simp only [if_true]
    cases i.act <;> rfl

/-- Storing over the active stack after the pops forgets where the cursor was. -/
theorem setStack_withCursor (s : State) (i : Instr) (c base : Nat) (out : List Byte) :
    { ((s.decoded i.opcode).withCursor c).setStack i.act
        ((((s.decoded i.opcode).withCursor c).stack i.act).stored base out) with kptr := none, current := none } =
      (s.afterModes i).setStack i.act ((s.stack i.act).stored base out) := by
  have ha : (s.decoded i.opcode).active = i.act := rfl
  have hd : (((s.decoded i.opcode).withCursor c).stack i.act).stored base out = (s.stack i.act).stored base out := by
    have := withCursor_dat (s.decoded i.opcode) c
    rw [ha, decoded_stack] at this
    simp only [Stack.stored, this]
  rw [hd]
  unfold State.withCursor
  rw [ha]
  split
  · cases i.act <;> rfl
  · rw [setStack_setStack]
    cases i.act <;> rfl

/-- `kptr` set to none keeps every stack. -/
theorem stack_kptr (s : State) (k : Option Byte) (id : StackId) : ({ s with kptr := k } : State).stack id = s.stack id := by
  cases id <;> rfl

/-- What ends an evaluate forgets the transient state before it. -/
theorem endEvaluate_setStack_withCursor (s : State) (i : Instr) (c base : Nat) (out : List Byte) (o : EvalOutcome) :
    (((s.decoded i.opcode).withCursor c).setStack i.act
        ((((s.decoded i.opcode).withCursor c).stack i.act).stored base out)).endEvaluate o =
      (s.setStack i.act ((s.stack i.act).stored base out)).endEvaluate o := by
  have h := congrArg (fun t => State.endEvaluate t o) (setStack_withCursor s i c base out)
  have h2 : ∀ (t : State), State.endEvaluate { t with kptr := none, current := none } o = t.endEvaluate o := fun _ => rfl
  simp only [h2] at h
  rw [h]
  cases i.act <;> rfl

theorem stored_ptr_toNat (st : Stack) (base : Nat) (out : List Byte) (h : base + out.length ≤ 255) :
    (st.stored base out).ptr.toNat = base + out.length := by
  simp only [Stack.stored, BitVec.toNat_ofNat]
  omega

/-- An underflow of the active stack, as the trap leaves it (60_exceptions R272, R274). -/
theorem raise_underflow (s : State) (i : Instr) :
    raise ⟨.stackUnderflow, i.act⟩ ((s.decoded i.opcode).withCursor 0) = s.underflowed i := by
  have ha : (s.decoded i.opcode).active = i.act := rfl
  unfold State.underflowed State.withCursor raise State.errorRecord
  rw [ha, decoded_keep]
  cases hk : i.keep
  · rw [show keepBit i.opcode = false from hk]
    cases hi : i.act <;> rfl
  · rw [show keepBit i.opcode = true from hk]
    cases hi : i.act <;> rfl

/-- Pops, then pushes, then a change of state that reads nothing of the stacks or the transient state: what the instruction
does in every state. -/
theorem runForm_popPush (s : State) (i : Instr) (pops : Nat) (out : List Byte) (body : State → Res Unit)
    (hexec : exec i s = runForm i.opcode body s)
    (hbody : body (s.decoded i.opcode) = popPush pops out (s.decoded i.opcode)) :
    RunsAs i s pops out id := by
  obtain ⟨hcur, hact, -, -, -, -⟩ := cursor_decoded s i
  have hlt := (s.stack i.act).ptr.isLt
  rw [runForm, hbody, popPush, hcur, hact] at hexec
  refine ⟨fun h1 h2 => ?_, fun h1 => ?_, fun h1 h2 => ?_⟩
  · rw [hexec, if_neg (by omega), pushAll_eq, ptr_withCursor s i pops h1, if_pos h2]
    exact congrArg Host.Outcome.next (setStack_withCursor s i _ _ _)
  · rw [hexec, if_pos h1]
    exact congrArg Host.Outcome.next (raise_underflow s i)
  · rw [hexec, if_neg (by omega), pushAll_eq, ptr_withCursor s i pops h1, if_neg (by omega)]
    have hb : pushBase i s pops ≤ 255 := by unfold pushBase; split <;> omega
    have hlen : pushBase i s pops + (out.take (255 - pushBase i s pops)).length = 255 := by
      rw [List.length_take]; omega
    have hrec : ∀ (t : State) (st : Stack), st.ptr = 255 → t.opcode = i.opcode → t.opAddr = s.pc - 1 →
        raise ⟨.stackOverflow, i.act⟩ (t.setStack i.act st) =
          (t.setStack i.act st).endEvaluate (.error ⟨0x02, .stackOverflow, i.act, i.opcode, s.pc - 1, 255⟩) := by
      intro t st h3 h4 h5
      simp only [raise, State.errorRecord, stack_setStack_same, h3, setStack_opcode, setStack_opAddr, h4, h5]
      rfl
    simp only [finish]
    rw [hrec _ _ ?_ (by simp) (by simp), endEvaluate_setStack_withCursor]
    · rfl
    · apply BitVec.eq_of_toNat_eq
      rw [stored_ptr_toNat _ _ _ (by omega), hlen]
      rfl

end Sys2Proof.Machine
end

