-- ==== Sys2Proof/Laws/Bodies.lean ====
section
/-! SUPPORT. What the operation of each instruction does, in closed form: how many bytes it pops, what it pushes, what it changes
besides. The meanings of an instruction's eight forms are these operations run with its opcode byte. -/
namespace Sys2Proof.Machine

/-! ### Several pops in a row -/

theorem pop_pop_bind {β : Type} (s : State) (f : Word → Word → State → Res β) :
    ((pop s).bind fun a t => (pop t).bind fun b u => f a b u) =
      if s.cursor < 2 * s.size then .raised ⟨.stackUnderflow, s.active⟩ (s.withCursor 0)
      else f ((s.stack s.active).item s.short s.cursor) ((s.stack s.active).item s.short (s.cursor - s.size))
        (s.withCursor (s.cursor - 2 * s.size)) := by
  have hc := cursor_le s
  have hs := size_pos s
  rw [pop_bind]
  by_cases h1 : s.cursor < s.size
  · rw [if_pos h1, if_pos (by omega)]
  · rw [if_neg h1, pop_bind, cursor_withCursor s _ (by omega)]
    simp only [withCursor_size, withCursor_active, withCursor_item, withCursor_short, withCursor_withCursor]
    by_cases h2 : s.cursor < 2 * s.size
    · rw [if_pos h2, if_pos (by omega)]
    · rw [if_neg h2, if_neg (by omega), show s.cursor - s.size - s.size = s.cursor - 2 * s.size by omega]

theorem pop_pop_pop_bind {β : Type} (s : State) (f : Word → Word → Word → State → Res β) :
    ((pop s).bind fun a t => (pop t).bind fun b u => (pop u).bind fun c v => f a b c v) =
      if s.cursor < 3 * s.size then .raised ⟨.stackUnderflow, s.active⟩ (s.withCursor 0)
      else f ((s.stack s.active).item s.short s.cursor) ((s.stack s.active).item s.short (s.cursor - s.size))
        ((s.stack s.active).item s.short (s.cursor - 2 * s.size)) (s.withCursor (s.cursor - 3 * s.size)) := by
  have hc := cursor_le s
  have hs := size_pos s
  rw [pop_pop_bind s fun a b u => (pop u).bind fun c v => f a b c v]
  by_cases h1 : s.cursor < 2 * s.size
  · rw [if_pos h1, if_pos (by omega)]
  · rw [if_neg h1, pop_bind, cursor_withCursor s _ (by omega)]
    simp only [withCursor_size, withCursor_active, withCursor_item, withCursor_short, withCursor_withCursor]
    by_cases h2 : s.cursor < 3 * s.size
    · rw [if_pos h2, if_pos (by omega)]
    · rw [if_neg h2, if_neg (by omega), show s.cursor - 2 * s.size - s.size = s.cursor - 3 * s.size by omega]

theorem pop_popByte_bind {β : Type} (s : State) (f : Word → Byte → State → Res β) :
    ((pop s).bind fun a t => (popByte t).bind fun b u => f a b u) =
      if s.cursor < s.size + 1 then .raised ⟨.stackUnderflow, s.active⟩ (s.withCursor 0)
      else f ((s.stack s.active).item s.short s.cursor) ((s.stack s.active).cell (s.cursor - s.size - 1))
        (s.withCursor (s.cursor - (s.size + 1))) := by
  have hc := cursor_le s
  rw [pop_bind]
  by_cases h1 : s.cursor < s.size
  · rw [if_pos h1, if_pos (by omega)]
  · rw [if_neg h1, popByte_bind, cursor_withCursor s _ (by omega)]
    simp only [withCursor_active, withCursor_cell, withCursor_withCursor]
    by_cases h2 : s.cursor < s.size + 1
    · rw [if_pos h2, if_pos (by omega)]
    · rw [if_neg h2, if_neg (by omega), show s.cursor - s.size - 1 = s.cursor - (s.size + 1) by omega]

theorem popByte_pop_bind {β : Type} (s : State) (f : Byte → Word → State → Res β) :
    ((popByte s).bind fun a t => (pop t).bind fun b u => f a b u) =
      if s.cursor < 1 + s.size then .raised ⟨.stackUnderflow, s.active⟩ (s.withCursor 0)
      else f ((s.stack s.active).cell (s.cursor - 1)) ((s.stack s.active).item s.short (s.cursor - 1))
        (s.withCursor (s.cursor - (1 + s.size))) := by
  have hc := cursor_le s
  rw [popByte_bind]
  by_cases h1 : s.cursor < 1
  · rw [if_pos h1, if_pos (by omega)]
  · rw [if_neg h1, pop_bind, cursor_withCursor s _ (by omega)]
    simp only [withCursor_size, withCursor_active, withCursor_item, withCursor_short, withCursor_withCursor]
    by_cases h2 : s.cursor < 1 + s.size
    · rw [if_pos h2, if_pos (by omega)]
    · rw [if_neg h2, if_neg (by omega), show s.cursor - 1 - s.size = s.cursor - (1 + s.size) by omega]

theorem popShort_pop_bind {β : Type} (s : State) (f : Word → Word → State → Res β) :
    ((popShort s).bind fun a t => (pop t).bind fun b u => f a b u) =
      if s.cursor < 2 + s.size then .raised ⟨.stackUnderflow, s.active⟩ (s.withCursor 0)
      else f ((s.stack s.active).item true s.cursor) ((s.stack s.active).item s.short (s.cursor - 2))
        (s.withCursor (s.cursor - (2 + s.size))) := by
  have hc := cursor_le s
  rw [popShort_bind]
  by_cases h1 : s.cursor < 2
  · rw [if_pos h1, if_pos (by omega)]
  · rw [if_neg h1, pop_bind, cursor_withCursor s _ (by omega)]
    simp only [withCursor_size, withCursor_active, withCursor_item, withCursor_short, withCursor_withCursor]
    by_cases h2 : s.cursor < 2 + s.size
    · rw [if_pos h2, if_pos (by omega)]
    · rw [if_neg h2, if_neg (by omega), show s.cursor - 2 - s.size = s.cursor - (2 + s.size) by omega]

/-- A push after pops, as a run of bytes on the active stack. -/
theorem push_withCursor (s : State) (c : Nat) (v : Word) :
    push v (s.withCursor c) = pushAll s.active (itemBytes s.short v) (s.withCursor c) := by
  rw [push_eq, withCursor_active, withCursor_short]

theorem pushByte_withCursor (s : State) (c : Nat) (v : Byte) :
    pushByte v (s.withCursor c) = pushAll s.active [v] (s.withCursor c) := by
  rw [pushByte, push8_eq, withCursor_active]

theorem pushAll_push_withCursor (s : State) (c : Nat) (v : Word) (bytes : List Byte) :
    (pushAll s.active bytes (s.withCursor c)).bind (fun _ t => push v t) =
      pushAll s.active (bytes ++ itemBytes s.short v) (s.withCursor c) := by
  have := pushAll_push v bytes (s.withCursor c)
  rwa [withCursor_active, withCursor_short] at this

/-- `popPush` with no push, then a change of state: the form of the instructions that push nothing. -/
def popThen (pops : Nat) (f : State → State) (s : State) : Res Unit :=
  if s.cursor < pops then .raised ⟨.stackUnderflow, s.active⟩ (s.withCursor 0)
  else .done () (f (s.withCursor (s.cursor - pops)))

/-! ### Stack operations -/

theorem opLit_eq (n imm : Word) (s : State) :
    opLit n imm s = pushAll s.active (itemBytes s.short imm) (s.setPc (s.pc + n)) := push_eq _ _

theorem opInc_eq (s : State) :
    opInc s = popPush s.size (itemBytes s.short ((s.stack s.active).item s.short s.cursor + 1)) s := by
  simp only [opInc, pop_bind, push_withCursor, popPush]

theorem opPop_eq (s : State) : opPop s = popPush s.size [] s := by
  simp only [opPop, pop_bind, popPush, pushAll]

theorem opNip_eq (s : State) :
    opNip s = popPush (2 * s.size) (itemBytes s.short ((s.stack s.active).item s.short s.cursor)) s := by
  rw [opNip, pop_pop_bind s fun a _ u => push a u]
  simp only [push_withCursor, popPush]

theorem opSwp_eq (s : State) :
    opSwp s = popPush (2 * s.size) (itemBytes s.short ((s.stack s.active).item s.short s.cursor) ++
      itemBytes s.short ((s.stack s.active).item s.short (s.cursor - s.size))) s := by
  rw [opSwp, pop_pop_bind s fun a b u => (push a u).bind fun _ u => push b u]
  simp only [push_withCursor, pushAll_push_withCursor, popPush]

theorem opRot_eq (s : State) :
    opRot s = popPush (3 * s.size) (itemBytes s.short ((s.stack s.active).item s.short (s.cursor - s.size)) ++
      itemBytes s.short ((s.stack s.active).item s.short s.cursor) ++
      itemBytes s.short ((s.stack s.active).item s.short (s.cursor - 2 * s.size))) s := by
  rw [opRot, pop_pop_pop_bind s fun a b c u => (push b u).bind fun _ u => (push a u).bind fun _ u => push c u]
  simp only [push_withCursor, popPush]
  have key : ∀ (v w x : Word) (c : Nat), (pushAll s.active (itemBytes s.short v) (s.withCursor c)).bind
      (fun _ u => (push w u).bind fun _ u => push x u) =
      pushAll s.active (itemBytes s.short v ++ itemBytes s.short w ++ itemBytes s.short x) (s.withCursor c) := by
    intro v w x c
    rw [← pushAll_push_withCursor, ← pushAll_push_withCursor]
    cases pushAll s.active (itemBytes s.short v) (s.withCursor c) <;> rfl
  simp only [key]

theorem opDup_eq (s : State) :
    opDup s = popPush s.size (itemBytes s.short ((s.stack s.active).item s.short s.cursor) ++
      itemBytes s.short ((s.stack s.active).item s.short s.cursor)) s := by
  simp only [opDup, pop_bind, push_withCursor, pushAll_push_withCursor, popPush]

theorem opOvr_eq (s : State) :
    opOvr s = popPush (2 * s.size) (itemBytes s.short ((s.stack s.active).item s.short (s.cursor - s.size)) ++
      itemBytes s.short ((s.stack s.active).item s.short s.cursor) ++
      itemBytes s.short ((s.stack s.active).item s.short (s.cursor - s.size))) s := by
  rw [opOvr, pop_pop_bind s fun a b u => (push b u).bind fun _ u => (push a u).bind fun _ u => push b u]
  simp only [push_withCursor, popPush]
  have key : ∀ (v w x : Word) (c : Nat), (pushAll s.active (itemBytes s.short v) (s.withCursor c)).bind
      (fun _ u => (push w u).bind fun _ u => push x u) =
      pushAll s.active (itemBytes s.short v ++ itemBytes s.short w ++ itemBytes s.short x) (s.withCursor c) := by
    intro v w x c
    rw [← pushAll_push_withCursor, ← pushAll_push_withCursor]
    cases pushAll s.active (itemBytes s.short v) (s.withCursor c) <;> rfl
  simp only [key]

/-! ### Comparison, control transfer and stash -/

theorem opCompare_eq (f : Word → Word → Byte) (s : State) :
    opCompare f s = popPush (2 * s.size) [f ((s.stack s.active).item s.short (s.cursor - s.size))
      ((s.stack s.active).item s.short s.cursor)] s := by
  rw [opCompare, pop_pop_bind s fun a b u => pushByte (f b a) u]
  simp only [pushByte_withCursor, popPush]

theorem opJmp_eq (s : State) :
    opJmp s = popThen s.size (fun u => u.setPc (s.resolve ((s.stack s.active).item s.short s.cursor))) s := by
  simp only [opJmp, pop_bind, effect, withCursor_resolve, popThen]

theorem opJcn_eq (s : State) :
    opJcn s = popThen (s.size + 1) (fun u => if taken ((s.stack s.active).cell (s.cursor - s.size - 1)) then
      u.setPc (s.resolve ((s.stack s.active).item s.short s.cursor)) else u) s := by
  rw [opJcn, pop_popByte_bind s fun t c u => effect (fun u => if taken c then u.setPc (u.resolve t) else u) u]
  simp only [effect, withCursor_resolve, popThen]

/-! ### Memory and devices -/

theorem opLdz_eq (s : State) :
    opLdz s = popPush 1 (itemBytes s.short (s.memRead s.short (zext16 ((s.stack s.active).cell (s.cursor - 1))))) s := by
  simp only [opLdz, popByte_bind, withCursor_short, withCursor_memRead, push_withCursor, popPush]

theorem opLdr_eq (s : State) :
    opLdr s = popPush 1
      (itemBytes s.short (s.memRead s.short (s.relative ((s.stack s.active).cell (s.cursor - 1))))) s := by
  simp only [opLdr, popByte_bind, withCursor_short, withCursor_relative, withCursor_memRead, push_withCursor, popPush]

theorem opLda_eq (s : State) :
    opLda s = popPush 2 (itemBytes s.short (s.memRead s.short ((s.stack s.active).item true s.cursor))) s := by
  simp only [opLda, popShort_bind, withCursor_short, withCursor_memRead, push_withCursor, popPush]

theorem opDei_eq (s : State) :
    opDei s = popPush 1 (itemBytes s.short (s.devRead s.short ((s.stack s.active).cell (s.cursor - 1)))) s := by
  simp only [opDei, popByte_bind, withCursor_short, withCursor_devRead, push_withCursor, popPush]

theorem opStz_eq (s : State) :
    opStz s = popThen (1 + s.size) (fun u => u.memWrite s.short (zext16 ((s.stack s.active).cell (s.cursor - 1)))
      ((s.stack s.active).item s.short (s.cursor - 1))) s := by
  rw [opStz, popByte_pop_bind s fun a v u => effect (fun u => u.memWrite u.short (zext16 a) v) u]
  simp only [effect, withCursor_short, popThen]

theorem opStr_eq (s : State) :
    opStr s = popThen (1 + s.size) (fun u => u.memWrite s.short (s.relative ((s.stack s.active).cell (s.cursor - 1)))
      ((s.stack s.active).item s.short (s.cursor - 1))) s := by
  rw [opStr, popByte_pop_bind s fun d v u => effect (fun u => u.memWrite u.short (u.relative d) v) u]
  simp only [effect, withCursor_short, withCursor_relative, popThen]

theorem opSta_eq (s : State) :
    opSta s = popThen (2 + s.size) (fun u => u.memWrite s.short ((s.stack s.active).item true s.cursor)
      ((s.stack s.active).item s.short (s.cursor - 2))) s := by
  rw [opSta, popShort_pop_bind s fun a v u => effect (fun u => u.memWrite u.short a v) u]
  simp only [effect, withCursor_short, popThen]

theorem opDeo_eq (s : State) :
    opDeo s = popThen (1 + s.size) (devWrite s.short ((s.stack s.active).cell (s.cursor - 1))
      ((s.stack s.active).item s.short (s.cursor - 1))) s := by
  rw [opDeo, popByte_pop_bind s fun p v u => effect (fun u => devWrite u.short p v u) u]
  simp only [effect, withCursor_short, popThen]

/-! ### Arithmetic and logic -/

theorem opBinary_eq (f : Word → Word → Word) (s : State) :
    opBinary f s = popPush (2 * s.size) (itemBytes s.short (f ((s.stack s.active).item s.short (s.cursor - s.size))
      ((s.stack s.active).item s.short s.cursor))) s := by
  rw [opBinary, pop_pop_bind s fun a b u => push (f b a) u]
  simp only [push_withCursor, popPush]

theorem opSft_eq (s : State) :
    opSft s = popPush (1 + s.size) (itemBytes s.short (shifted ((s.stack s.active).item s.short (s.cursor - 1))
      ((s.stack s.active).cell (s.cursor - 1)))) s := by
  rw [opSft, popByte_pop_bind s fun sh b u => push (shifted b sh) u]
  simp only [push_withCursor, popPush]

/-- DIV: the operands are popped; then a zero divisor raises, and any other one is a push (44_arith_logic R193). -/
theorem opDiv_eq (s : State) :
    opDiv s =
      if (s.stack s.active).item s.short s.cursor = 0 then
        (if s.cursor < 2 * s.size then .raised ⟨.stackUnderflow, s.active⟩ (s.withCursor 0)
         else .raised ⟨.divisionByZero, s.active⟩ (s.withCursor (s.cursor - 2 * s.size)))
      else popPush (2 * s.size) (itemBytes s.short (((s.stack s.active).item s.short (s.cursor - s.size)).udiv
        ((s.stack s.active).item s.short s.cursor))) s := by
  rw [opDiv, pop_pop_bind s fun a b u =>
    if a = 0 then .raised ⟨.divisionByZero, u.active⟩ u else push (b.udiv a) u]
  by_cases h : (s.stack s.active).item s.short s.cursor = 0
  · rw [if_pos h, if_pos h, withCursor_active]
  · rw [if_neg h, if_neg h, push_withCursor, popPush]

end Sys2Proof.Machine
end

