-- ==== Sys2Proof/Laws/Screen.lean ====
section
/-! SUPPORT. The device page's shorts and the screen's coordinates: what a two-byte field reads after a write (10_state R38), and
that a layer's index tells its row and column (46_screen_blitter R237). -/
namespace Sys2Proof.Machine

theorem port_ne_next (p : Byte) : p ≠ p + 1 := by revert p; decide

theorem setDevShort_wf (s : State) (p : Byte) (v : Word) (h : Cells.wf 0 s.dev = true) :
    Cells.wf 0 (s.setDevShort p v).dev = true :=
  setDevByte_wf _ _ _ (setDevByte_wf _ _ _ h)

theorem setDevShort_below (s : State) (p : Byte) (v : Word) (h : Cells.below portCount s.dev = true) :
    Cells.below portCount (s.setDevShort p v).dev = true :=
  setDevByte_below _ _ _ (setDevByte_below _ _ _ h)

theorem devByte_setDevShort (s : State) (p q : Byte) (v : Word) (h : Cells.wf 0 s.dev = true) :
    (s.setDevShort p v).devByte q = if q = p + 1 then lowByte v else if q = p then highByte v else s.devByte q := by
  unfold State.setDevShort
  rw [devByte_setDevByte _ _ _ _ (setDevByte_wf _ _ _ h), devByte_setDevByte _ _ _ _ h]

theorem devShort_setDevShort_same (s : State) (p : Byte) (v : Word) (h : Cells.wf 0 s.dev = true) :
    (s.setDevShort p v).devShort p = v := by
  unfold State.devShort
  rw [devByte_setDevShort _ _ _ _ h, devByte_setDevShort _ _ _ _ h, if_neg (port_ne_next p), if_pos rfl, if_pos rfl,
    shortOf_bytes]

/-- Two fields whose ports differ by more than 1, mod 256, do not touch. -/
theorem devShort_setDevShort_apart (s : State) (p q : Byte) (v : Word) (h : Cells.wf 0 s.dev = true) (h0 : q ≠ p)
    (h1 : q ≠ p + 1) (h2 : q + 1 ≠ p) : (s.setDevShort p v).devShort q = s.devShort q := by
  have h3 : q + 1 ≠ p + 1 := fun e => h0 (by simpa using e)
  unfold State.devShort
  rw [devByte_setDevShort _ _ _ _ h, devByte_setDevShort _ _ _ _ h, if_neg h1, if_neg h0, if_neg h3, if_neg h2]

/-- A byte stored outside a field leaves the field as it was. -/
theorem devShort_setDevByte_apart (s : State) (p q v : Byte) (h : Cells.wf 0 s.dev = true) (h0 : q ≠ p) (h1 : q + 1 ≠ p) :
    (s.setDevByte p v).devShort q = s.devShort q := by
  unfold State.devShort
  rw [devByte_setDevByte _ _ _ _ h, devByte_setDevByte _ _ _ _ h, if_neg h0, if_neg h1]

/-- A layer's index tells its column and row. -/
theorem pixelIndex_inj (x y x' y' : Word) : pixelIndex x y = pixelIndex x' y' ↔ x = x' ∧ y = y' := by
  have := x.isLt
  have := x'.isLt
  rw [← BitVec.toNat_inj, ← BitVec.toNat_inj (x := y)]
  unfold pixelIndex
  omega

theorem inBounds_iff (sc : Screen) (x y : Word) :
    sc.inBounds x y = true ↔ x.toNat < sc.width.toNat ∧ y.toNat < sc.height.toNat := by
  simp [Screen.inBounds, BitVec.ult]

theorem deviceSlot_eq (p : Byte) : deviceSlot p = p.toNat / 16 := by
  have := p.isLt
  simp [deviceSlot, BitVec.extractLsb'_toNat, Nat.shiftRight_eq_div_pow]
  omega

/-- A layer stays inside the live size when a cell in bounds is written. -/
theorem covers_write {α : Type} [DecidableEq α] (sc : Screen) (dflt v : α) (cells : Cells α) (x y : Word)
    (h : sc.covers cells = true) (hb : sc.inBounds x y = true) :
    sc.covers (Cells.write dflt cells (pixelIndex x y) v) = true := by
  rw [inBounds_iff] at hb
  simp only [Screen.covers, List.all_eq_true] at h ⊢
  intro c hc
  rcases mem_write dflt cells (pixelIndex x y) v c hc with hm | hm
  · exact h c hm
  · have := x.isLt
    have hx : pixelIndex x y % 65536 = x.toNat := by unfold pixelIndex; omega
    have hy : pixelIndex x y / 65536 = y.toNat := by unfold pixelIndex; omega
    rw [hm]
    simp [hx, hy, hb]

end Sys2Proof.Machine
end

