-- ==== Sys2Proof/Laws/Device.lean ====
section
/-! SUPPORT. Which fields of the state the device handlers can change (45_device_bus R212 to R223, 46_screen_blitter R231). -/
namespace Sys2Proof.Machine

theorem setDevShort_eq (s : State) (p : Byte) (v : Word) : ∃ d, s.setDevShort p v = { s with dev := d } := ⟨_, rfl⟩

/-- The System handler changes only the palette. -/
theorem systemHandler_eq (p v : Byte) (s : State) :
    systemHandler p v s = { s with palette := (systemHandler p v s).palette } := by
  unfold systemHandler
  split <;> rfl

/-- The Console handler changes only `console_out`. -/
theorem consoleHandler_eq (p v : Byte) (s : State) :
    consoleHandler p v s = { s with consoleOut := (consoleHandler p v s).consoleOut } := by
  unfold consoleHandler
  split <;> rfl

theorem pixelCommand_eq (s : State) : ∃ sc d, pixelCommand s = { s with screen := sc, dev := d } := by
  unfold pixelCommand
  dsimp only
  generalize s.screen.writePixel _ _ _ _ = sc
  split <;> split
  · obtain ⟨d, e⟩ := setDevShort_eq { s with screen := sc } 0x28 (s.cursorX + 1)
    rw [e]
    obtain ⟨d', e'⟩ := setDevShort_eq { s with screen := sc, dev := d } 0x2A (s.cursorY + 1)
    rw [e']
    exact ⟨_, _, rfl⟩
  · obtain ⟨d, e⟩ := setDevShort_eq { s with screen := sc } 0x2A (s.cursorY + 1)
    rw [e]
    exact ⟨_, _, rfl⟩
  · obtain ⟨d, e⟩ := setDevShort_eq { s with screen := sc } 0x28 (s.cursorX + 1)
    rw [e]
    exact ⟨_, _, rfl⟩
  · exact ⟨_, _, rfl⟩

theorem spriteCommand_eq (s : State) :
    ∃ sc d g, spriteCommand s = { s with screen := sc, dev := d, diagnostics := g } := by
  unfold spriteCommand
  dsimp only
  split
  · exact ⟨_, _, _, rfl⟩
  · generalize drawTiles _ _ _ _ = sc
    generalize BitVec.ofNat 16 _ = a
    obtain ⟨d1, e1⟩ := setDevShort_eq { s with screen := sc } 0x28 (s.cursorX + spriteDx s.autoCtl)
    rw [e1]
    obtain ⟨d2, e2⟩ := setDevShort_eq { s with screen := sc, dev := d1 } 0x2A (s.cursorY + spriteDy s.autoCtl)
    rw [e2]
    obtain ⟨d3, e3⟩ := setDevShort_eq { s with screen := sc, dev := d2 } 0x2C a
    rw [e3]
    exact ⟨_, _, _, rfl⟩

/-- The Screen handler changes only the screen, the device page and the diagnostics. -/
theorem screenHandler_eq (p : Byte) (s : State) :
    ∃ sc d g, screenHandler p s = { s with screen := sc, dev := d, diagnostics := g } := by
  unfold screenHandler
  split
  · exact ⟨_, _, _, rfl⟩
  · split
    · exact ⟨_, _, _, rfl⟩
    · split
      · obtain ⟨sc, d, e⟩ := pixelCommand_eq s
        exact ⟨sc, d, _, e⟩
      · split
        · exact spriteCommand_eq s
        · exact ⟨_, _, _, rfl⟩

/-- A one-byte device write changes only the device page, the screen, the palette, `console_out` and the diagnostics. -/
theorem devWriteByte_eq (p v : Byte) (s : State) : ∃ d sc pal out g,
    devWriteByte p v s = { s with dev := d, screen := sc, palette := pal, consoleOut := out, diagnostics := g } := by
  unfold devWriteByte deviceHandler
  split
  · rw [systemHandler_eq]
    exact ⟨_, _, _, _, _, rfl⟩
  · rw [consoleHandler_eq]
    exact ⟨_, _, _, _, _, rfl⟩
  · obtain ⟨sc, d, g, e⟩ := screenHandler_eq p (s.setDevByte p v)
    rw [e]
    exact ⟨_, _, _, _, _, rfl⟩
  · exact ⟨_, _, _, _, _, rfl⟩

/-- Loading bytes changes only RAM. -/
theorem storeBytes_eq (image : List Byte) : ∀ (s : State) (a : Word), ∃ m, s.storeBytes a image = { s with ram := m } := by
  induction image with
  | nil => exact fun s a => ⟨_, rfl⟩
  | cons v rest ih =>
    intro s a
    obtain ⟨m, e⟩ := ih (s.setRamByte a v) (a + 1)
    exact ⟨m, e⟩

end Sys2Proof.Machine
end

