-- ==== Sys2Proof/Laws/PerInstr.lean ====
section
/-! SUPPORT. What holds of every instruction as syntax, one lemma per constructor: its opcode and immediate bytes decode to it,
and its encoding is as long as its opcode says (30_encoding R97, R100). -/
namespace Sys2Proof.Laws.RoundTrip

/-- The bytes the encoder writes, read by the byte decoder, are the instruction, and their number is the length that the opcode
byte gives. A missing immediate byte counts as 0. -/
def Statement (i : Instr) : Prop :=
  decodeBytes i.opcode (i.immBytes.getD 0 0) (i.immBytes.getD 1 0) = i ∧ lengthOf i.opcode = (encode i).length

theorem brk : Statement .brk := ⟨rfl, rfl⟩
theorem inc : Statement .inc := ⟨rfl, rfl⟩
theorem pop : Statement .pop := ⟨rfl, rfl⟩
theorem nip : Statement .nip := ⟨rfl, rfl⟩
theorem swp : Statement .swp := ⟨rfl, rfl⟩
theorem rot : Statement .rot := ⟨rfl, rfl⟩
theorem dup : Statement .dup := ⟨rfl, rfl⟩
theorem ovr : Statement .ovr := ⟨rfl, rfl⟩
theorem equ : Statement .equ := ⟨rfl, rfl⟩
theorem neq : Statement .neq := ⟨rfl, rfl⟩
theorem gth : Statement .gth := ⟨rfl, rfl⟩
theorem lth : Statement .lth := ⟨rfl, rfl⟩
theorem jmp : Statement .jmp := ⟨rfl, rfl⟩
theorem jcn : Statement .jcn := ⟨rfl, rfl⟩
theorem jsr : Statement .jsr := ⟨rfl, rfl⟩
theorem sth : Statement .sth := ⟨rfl, rfl⟩
theorem ldz : Statement .ldz := ⟨rfl, rfl⟩
theorem stz : Statement .stz := ⟨rfl, rfl⟩
theorem ldr : Statement .ldr := ⟨rfl, rfl⟩
theorem str : Statement .str := ⟨rfl, rfl⟩
theorem lda : Statement .lda := ⟨rfl, rfl⟩
theorem sta : Statement .sta := ⟨rfl, rfl⟩
theorem dei : Statement .dei := ⟨rfl, rfl⟩
theorem deo : Statement .deo := ⟨rfl, rfl⟩
theorem add : Statement .add := ⟨rfl, rfl⟩
theorem sub : Statement .sub := ⟨rfl, rfl⟩
theorem mul : Statement .mul := ⟨rfl, rfl⟩
theorem div : Statement .div := ⟨rfl, rfl⟩
theorem and : Statement .and := ⟨rfl, rfl⟩
theorem ora : Statement .ora := ⟨rfl, rfl⟩
theorem eor : Statement .eor := ⟨rfl, rfl⟩
theorem sft : Statement .sft := ⟨rfl, rfl⟩
theorem lit2 (imm : Word) : Statement (.lit2 imm) := by
  simp [Statement, decodeBytes, instrOf, modeForm, keepBit, returnBit, shortBit, BaseOp.numbered, lengthOf, encode, Instr.opcode, Instr.immBytes]
theorem inc2 : Statement .inc2 := ⟨rfl, rfl⟩
theorem pop2 : Statement .pop2 := ⟨rfl, rfl⟩
theorem nip2 : Statement .nip2 := ⟨rfl, rfl⟩
theorem swp2 : Statement .swp2 := ⟨rfl, rfl⟩
theorem rot2 : Statement .rot2 := ⟨rfl, rfl⟩
theorem dup2 : Statement .dup2 := ⟨rfl, rfl⟩
theorem ovr2 : Statement .ovr2 := ⟨rfl, rfl⟩
theorem equ2 : Statement .equ2 := ⟨rfl, rfl⟩
theorem neq2 : Statement .neq2 := ⟨rfl, rfl⟩
theorem gth2 : Statement .gth2 := ⟨rfl, rfl⟩
theorem lth2 : Statement .lth2 := ⟨rfl, rfl⟩
theorem jmp2 : Statement .jmp2 := ⟨rfl, rfl⟩
theorem jcn2 : Statement .jcn2 := ⟨rfl, rfl⟩
theorem jsr2 : Statement .jsr2 := ⟨rfl, rfl⟩
theorem sth2 : Statement .sth2 := ⟨rfl, rfl⟩
theorem ldz2 : Statement .ldz2 := ⟨rfl, rfl⟩
theorem stz2 : Statement .stz2 := ⟨rfl, rfl⟩
theorem ldr2 : Statement .ldr2 := ⟨rfl, rfl⟩
theorem str2 : Statement .str2 := ⟨rfl, rfl⟩
theorem lda2 : Statement .lda2 := ⟨rfl, rfl⟩
theorem sta2 : Statement .sta2 := ⟨rfl, rfl⟩
theorem dei2 : Statement .dei2 := ⟨rfl, rfl⟩
theorem deo2 : Statement .deo2 := ⟨rfl, rfl⟩
theorem add2 : Statement .add2 := ⟨rfl, rfl⟩
theorem sub2 : Statement .sub2 := ⟨rfl, rfl⟩
theorem mul2 : Statement .mul2 := ⟨rfl, rfl⟩
theorem div2 : Statement .div2 := ⟨rfl, rfl⟩
theorem and2 : Statement .and2 := ⟨rfl, rfl⟩
theorem ora2 : Statement .ora2 := ⟨rfl, rfl⟩
theorem eor2 : Statement .eor2 := ⟨rfl, rfl⟩
theorem sft2 : Statement .sft2 := ⟨rfl, rfl⟩
theorem litr (imm : Byte) : Statement (.litr imm) := by
  simp [Statement, decodeBytes, instrOf, modeForm, keepBit, returnBit, shortBit, BaseOp.numbered, lengthOf, encode, Instr.opcode, Instr.immBytes]
theorem incr : Statement .incr := ⟨rfl, rfl⟩
theorem popr : Statement .popr := ⟨rfl, rfl⟩
theorem nipr : Statement .nipr := ⟨rfl, rfl⟩
theorem swpr : Statement .swpr := ⟨rfl, rfl⟩
theorem rotr : Statement .rotr := ⟨rfl, rfl⟩
theorem dupr : Statement .dupr := ⟨rfl, rfl⟩
theorem ovrr : Statement .ovrr := ⟨rfl, rfl⟩
theorem equr : Statement .equr := ⟨rfl, rfl⟩
theorem neqr : Statement .neqr := ⟨rfl, rfl⟩
theorem gthr : Statement .gthr := ⟨rfl, rfl⟩
theorem lthr : Statement .lthr := ⟨rfl, rfl⟩
theorem jmpr : Statement .jmpr := ⟨rfl, rfl⟩
theorem jcnr : Statement .jcnr := ⟨rfl, rfl⟩
theorem jsrr : Statement .jsrr := ⟨rfl, rfl⟩
theorem sthr : Statement .sthr := ⟨rfl, rfl⟩
theorem ldzr : Statement .ldzr := ⟨rfl, rfl⟩
theorem stzr : Statement .stzr := ⟨rfl, rfl⟩
theorem ldrr : Statement .ldrr := ⟨rfl, rfl⟩
theorem strr : Statement .strr := ⟨rfl, rfl⟩
theorem ldar : Statement .ldar := ⟨rfl, rfl⟩
theorem star : Statement .star := ⟨rfl, rfl⟩
theorem deir : Statement .deir := ⟨rfl, rfl⟩
theorem deor : Statement .deor := ⟨rfl, rfl⟩
theorem addr : Statement .addr := ⟨rfl, rfl⟩
theorem subr : Statement .subr := ⟨rfl, rfl⟩
theorem mulr : Statement .mulr := ⟨rfl, rfl⟩
theorem divr : Statement .divr := ⟨rfl, rfl⟩
theorem andr : Statement .andr := ⟨rfl, rfl⟩
theorem orar : Statement .orar := ⟨rfl, rfl⟩
theorem eorr : Statement .eorr := ⟨rfl, rfl⟩
theorem sftr : Statement .sftr := ⟨rfl, rfl⟩
theorem lit2r (imm : Word) : Statement (.lit2r imm) := by
  simp [Statement, decodeBytes, instrOf, modeForm, keepBit, returnBit, shortBit, BaseOp.numbered, lengthOf, encode, Instr.opcode, Instr.immBytes]
theorem inc2r : Statement .inc2r := ⟨rfl, rfl⟩
theorem pop2r : Statement .pop2r := ⟨rfl, rfl⟩
theorem nip2r : Statement .nip2r := ⟨rfl, rfl⟩
theorem swp2r : Statement .swp2r := ⟨rfl, rfl⟩
theorem rot2r : Statement .rot2r := ⟨rfl, rfl⟩
theorem dup2r : Statement .dup2r := ⟨rfl, rfl⟩
theorem ovr2r : Statement .ovr2r := ⟨rfl, rfl⟩
theorem equ2r : Statement .equ2r := ⟨rfl, rfl⟩
theorem neq2r : Statement .neq2r := ⟨rfl, rfl⟩
theorem gth2r : Statement .gth2r := ⟨rfl, rfl⟩
theorem lth2r : Statement .lth2r := ⟨rfl, rfl⟩
theorem jmp2r : Statement .jmp2r := ⟨rfl, rfl⟩
theorem jcn2r : Statement .jcn2r := ⟨rfl, rfl⟩
theorem jsr2r : Statement .jsr2r := ⟨rfl, rfl⟩
theorem sth2r : Statement .sth2r := ⟨rfl, rfl⟩
theorem ldz2r : Statement .ldz2r := ⟨rfl, rfl⟩
theorem stz2r : Statement .stz2r := ⟨rfl, rfl⟩
theorem ldr2r : Statement .ldr2r := ⟨rfl, rfl⟩
theorem str2r : Statement .str2r := ⟨rfl, rfl⟩
theorem lda2r : Statement .lda2r := ⟨rfl, rfl⟩
theorem sta2r : Statement .sta2r := ⟨rfl, rfl⟩
theorem dei2r : Statement .dei2r := ⟨rfl, rfl⟩
theorem deo2r : Statement .deo2r := ⟨rfl, rfl⟩
theorem add2r : Statement .add2r := ⟨rfl, rfl⟩
theorem sub2r : Statement .sub2r := ⟨rfl, rfl⟩
theorem mul2r : Statement .mul2r := ⟨rfl, rfl⟩
theorem div2r : Statement .div2r := ⟨rfl, rfl⟩
theorem and2r : Statement .and2r := ⟨rfl, rfl⟩
theorem ora2r : Statement .ora2r := ⟨rfl, rfl⟩
theorem eor2r : Statement .eor2r := ⟨rfl, rfl⟩
theorem sft2r : Statement .sft2r := ⟨rfl, rfl⟩
theorem lit (imm : Byte) : Statement (.lit imm) := by
  simp [Statement, decodeBytes, instrOf, modeForm, keepBit, returnBit, shortBit, BaseOp.numbered, lengthOf, encode, Instr.opcode, Instr.immBytes]
theorem inck : Statement .inck := ⟨rfl, rfl⟩
theorem popk : Statement .popk := ⟨rfl, rfl⟩
theorem nipk : Statement .nipk := ⟨rfl, rfl⟩
theorem swpk : Statement .swpk := ⟨rfl, rfl⟩
theorem rotk : Statement .rotk := ⟨rfl, rfl⟩
theorem dupk : Statement .dupk := ⟨rfl, rfl⟩
theorem ovrk : Statement .ovrk := ⟨rfl, rfl⟩
theorem equk : Statement .equk := ⟨rfl, rfl⟩
theorem neqk : Statement .neqk := ⟨rfl, rfl⟩
theorem gthk : Statement .gthk := ⟨rfl, rfl⟩
theorem lthk : Statement .lthk := ⟨rfl, rfl⟩
theorem jmpk : Statement .jmpk := ⟨rfl, rfl⟩
theorem jcnk : Statement .jcnk := ⟨rfl, rfl⟩
theorem jsrk : Statement .jsrk := ⟨rfl, rfl⟩
theorem sthk : Statement .sthk := ⟨rfl, rfl⟩
theorem ldzk : Statement .ldzk := ⟨rfl, rfl⟩
theorem stzk : Statement .stzk := ⟨rfl, rfl⟩
theorem ldrk : Statement .ldrk := ⟨rfl, rfl⟩
theorem strk : Statement .strk := ⟨rfl, rfl⟩
theorem ldak : Statement .ldak := ⟨rfl, rfl⟩
theorem stak : Statement .stak := ⟨rfl, rfl⟩
theorem deik : Statement .deik := ⟨rfl, rfl⟩
theorem deok : Statement .deok := ⟨rfl, rfl⟩
theorem addk : Statement .addk := ⟨rfl, rfl⟩
theorem subk : Statement .subk := ⟨rfl, rfl⟩
theorem mulk : Statement .mulk := ⟨rfl, rfl⟩
theorem divk : Statement .divk := ⟨rfl, rfl⟩
theorem andk : Statement .andk := ⟨rfl, rfl⟩
theorem orak : Statement .orak := ⟨rfl, rfl⟩
theorem eork : Statement .eork := ⟨rfl, rfl⟩
theorem sftk : Statement .sftk := ⟨rfl, rfl⟩
theorem lit2k (imm : Word) : Statement (.lit2k imm) := by
  simp [Statement, decodeBytes, instrOf, modeForm, keepBit, returnBit, shortBit, BaseOp.numbered, lengthOf, encode, Instr.opcode, Instr.immBytes]
theorem inc2k : Statement .inc2k := ⟨rfl, rfl⟩
theorem pop2k : Statement .pop2k := ⟨rfl, rfl⟩
theorem nip2k : Statement .nip2k := ⟨rfl, rfl⟩
theorem swp2k : Statement .swp2k := ⟨rfl, rfl⟩
theorem rot2k : Statement .rot2k := ⟨rfl, rfl⟩
theorem dup2k : Statement .dup2k := ⟨rfl, rfl⟩
theorem ovr2k : Statement .ovr2k := ⟨rfl, rfl⟩
theorem equ2k : Statement .equ2k := ⟨rfl, rfl⟩
theorem neq2k : Statement .neq2k := ⟨rfl, rfl⟩
theorem gth2k : Statement .gth2k := ⟨rfl, rfl⟩
theorem lth2k : Statement .lth2k := ⟨rfl, rfl⟩
theorem jmp2k : Statement .jmp2k := ⟨rfl, rfl⟩
theorem jcn2k : Statement .jcn2k := ⟨rfl, rfl⟩
theorem jsr2k : Statement .jsr2k := ⟨rfl, rfl⟩
theorem sth2k : Statement .sth2k := ⟨rfl, rfl⟩
theorem ldz2k : Statement .ldz2k := ⟨rfl, rfl⟩
theorem stz2k : Statement .stz2k := ⟨rfl, rfl⟩
theorem ldr2k : Statement .ldr2k := ⟨rfl, rfl⟩
theorem str2k : Statement .str2k := ⟨rfl, rfl⟩
theorem lda2k : Statement .lda2k := ⟨rfl, rfl⟩
theorem sta2k : Statement .sta2k := ⟨rfl, rfl⟩
theorem dei2k : Statement .dei2k := ⟨rfl, rfl⟩
theorem deo2k : Statement .deo2k := ⟨rfl, rfl⟩
theorem add2k : Statement .add2k := ⟨rfl, rfl⟩
theorem sub2k : Statement .sub2k := ⟨rfl, rfl⟩
theorem mul2k : Statement .mul2k := ⟨rfl, rfl⟩
theorem div2k : Statement .div2k := ⟨rfl, rfl⟩
theorem and2k : Statement .and2k := ⟨rfl, rfl⟩
theorem ora2k : Statement .ora2k := ⟨rfl, rfl⟩
theorem eor2k : Statement .eor2k := ⟨rfl, rfl⟩
theorem sft2k : Statement .sft2k := ⟨rfl, rfl⟩
theorem litkr (imm : Byte) : Statement (.litkr imm) := by
  simp [Statement, decodeBytes, instrOf, modeForm, keepBit, returnBit, shortBit, BaseOp.numbered, lengthOf, encode, Instr.opcode, Instr.immBytes]
theorem inckr : Statement .inckr := ⟨rfl, rfl⟩
theorem popkr : Statement .popkr := ⟨rfl, rfl⟩
theorem nipkr : Statement .nipkr := ⟨rfl, rfl⟩
theorem swpkr : Statement .swpkr := ⟨rfl, rfl⟩
theorem rotkr : Statement .rotkr := ⟨rfl, rfl⟩
theorem dupkr : Statement .dupkr := ⟨rfl, rfl⟩
theorem ovrkr : Statement .ovrkr := ⟨rfl, rfl⟩
theorem equkr : Statement .equkr := ⟨rfl, rfl⟩
theorem neqkr : Statement .neqkr := ⟨rfl, rfl⟩
theorem gthkr : Statement .gthkr := ⟨rfl, rfl⟩
theorem lthkr : Statement .lthkr := ⟨rfl, rfl⟩
theorem jmpkr : Statement .jmpkr := ⟨rfl, rfl⟩
theorem jcnkr : Statement .jcnkr := ⟨rfl, rfl⟩
theorem jsrkr : Statement .jsrkr := ⟨rfl, rfl⟩
theorem sthkr : Statement .sthkr := ⟨rfl, rfl⟩
theorem ldzkr : Statement .ldzkr := ⟨rfl, rfl⟩
theorem stzkr : Statement .stzkr := ⟨rfl, rfl⟩
theorem ldrkr : Statement .ldrkr := ⟨rfl, rfl⟩
theorem strkr : Statement .strkr := ⟨rfl, rfl⟩
theorem ldakr : Statement .ldakr := ⟨rfl, rfl⟩
theorem stakr : Statement .stakr := ⟨rfl, rfl⟩
theorem deikr : Statement .deikr := ⟨rfl, rfl⟩
theorem deokr : Statement .deokr := ⟨rfl, rfl⟩
theorem addkr : Statement .addkr := ⟨rfl, rfl⟩
theorem subkr : Statement .subkr := ⟨rfl, rfl⟩
theorem mulkr : Statement .mulkr := ⟨rfl, rfl⟩
theorem divkr : Statement .divkr := ⟨rfl, rfl⟩
theorem andkr : Statement .andkr := ⟨rfl, rfl⟩
theorem orakr : Statement .orakr := ⟨rfl, rfl⟩
theorem eorkr : Statement .eorkr := ⟨rfl, rfl⟩
theorem sftkr : Statement .sftkr := ⟨rfl, rfl⟩
theorem lit2kr (imm : Word) : Statement (.lit2kr imm) := by
  simp [Statement, decodeBytes, instrOf, modeForm, keepBit, returnBit, shortBit, BaseOp.numbered, lengthOf, encode, Instr.opcode, Instr.immBytes]
theorem inc2kr : Statement .inc2kr := ⟨rfl, rfl⟩
theorem pop2kr : Statement .pop2kr := ⟨rfl, rfl⟩
theorem nip2kr : Statement .nip2kr := ⟨rfl, rfl⟩
theorem swp2kr : Statement .swp2kr := ⟨rfl, rfl⟩
theorem rot2kr : Statement .rot2kr := ⟨rfl, rfl⟩
theorem dup2kr : Statement .dup2kr := ⟨rfl, rfl⟩
theorem ovr2kr : Statement .ovr2kr := ⟨rfl, rfl⟩
theorem equ2kr : Statement .equ2kr := ⟨rfl, rfl⟩
theorem neq2kr : Statement .neq2kr := ⟨rfl, rfl⟩
theorem gth2kr : Statement .gth2kr := ⟨rfl, rfl⟩
theorem lth2kr : Statement .lth2kr := ⟨rfl, rfl⟩
theorem jmp2kr : Statement .jmp2kr := ⟨rfl, rfl⟩
theorem jcn2kr : Statement .jcn2kr := ⟨rfl, rfl⟩
theorem jsr2kr : Statement .jsr2kr := ⟨rfl, rfl⟩
theorem sth2kr : Statement .sth2kr := ⟨rfl, rfl⟩
theorem ldz2kr : Statement .ldz2kr := ⟨rfl, rfl⟩
theorem stz2kr : Statement .stz2kr := ⟨rfl, rfl⟩
theorem ldr2kr : Statement .ldr2kr := ⟨rfl, rfl⟩
theorem str2kr : Statement .str2kr := ⟨rfl, rfl⟩
theorem lda2kr : Statement .lda2kr := ⟨rfl, rfl⟩
theorem sta2kr : Statement .sta2kr := ⟨rfl, rfl⟩
theorem dei2kr : Statement .dei2kr := ⟨rfl, rfl⟩
theorem deo2kr : Statement .deo2kr := ⟨rfl, rfl⟩
theorem add2kr : Statement .add2kr := ⟨rfl, rfl⟩
theorem sub2kr : Statement .sub2kr := ⟨rfl, rfl⟩
theorem mul2kr : Statement .mul2kr := ⟨rfl, rfl⟩
theorem div2kr : Statement .div2kr := ⟨rfl, rfl⟩
theorem and2kr : Statement .and2kr := ⟨rfl, rfl⟩
theorem ora2kr : Statement .ora2kr := ⟨rfl, rfl⟩
theorem eor2kr : Statement .eor2kr := ⟨rfl, rfl⟩
theorem sft2kr : Statement .sft2kr := ⟨rfl, rfl⟩

end Sys2Proof.Laws.RoundTrip
end

