-- ==== Sys2Proof/Laws/Stable.lean ====
section
/-! SUPPORT. What an instruction can do, said once: every rule is a sequence of elementary changes, and then the instruction
completes, or ends the evaluate by BRK or by a fatal error (40_execution_cycle R112, R115, R119). A property kept by the elementary
changes therefore holds of the state an instruction leaves. -/
namespace Sys2Proof.Machine

/-- `P` is kept by each elementary change that an instruction's rule makes. -/
structure Stable (P : State → Prop) : Prop where
  modes : ∀ b s, P s → P (s.decoded b)
  kptr : ∀ k s, P s → P { s with kptr := k }
  current : ∀ c s, P s → P { s with current := c }
  push : ∀ id v s, (s.stack id).ptr ≠ 255 → P s → P (s.setStack id ((s.stack id).pushed v))
  drop : ∀ id s, (s.stack id).ptr ≠ 0 → P s → P (s.setStack id { s.stack id with ptr := (s.stack id).ptr - 1 })
  pc : ∀ a s, P s → P (s.setPc a)
  ram : ∀ a v s, P s → P (s.setRamByte a v)
  dev : ∀ p v s, P s → P (devWriteByte p v s)

/-- The state a primitive leaves, whether it completes or raises. -/
def Res.state {α : Type} (x : Res α) : State :=
  match x with
  | .done _ s => s
  | .raised _ s => s

/-- A sequence keeps what its first part leaves and its second part keeps. -/
theorem bind_state {α β : Type} {P : State → Prop} (x : Res α) (f : α → State → Res β) (hx : P x.state)
    (hf : ∀ a s, P s → P (f a s).state) : P (x.bind f).state := by
  cases x with
  | done a s => exact hf a s hx
  | raised e s => exact hx

variable {P : State → Prop}

theorem Stable.push8 (h : Stable P) (id : StackId) (v : Byte) (s : State) (hs : P s) : P (push8 id v s).state := by
  unfold Machine.push8
  split
  · exact hs
  · exact h.push id v s ‹_› hs

theorem Stable.pop8 (h : Stable P) (id : StackId) (s : State) (hs : P s) : P (pop8 id s).state := by
  unfold Machine.pop8
  split
  · dsimp only
    split <;> exact h.kptr _ s hs
  · split
    · exact hs
    · exact h.drop id s ‹_› hs

theorem Stable.push16 (h : Stable P) (id : StackId) (v : Word) (s : State) (hs : P s) : P (push16 id v s).state :=
  bind_state _ _ (h.push8 _ _ _ hs) fun _ _ hs => h.push8 _ _ _ hs

theorem Stable.pop16 (h : Stable P) (id : StackId) (s : State) (hs : P s) : P (pop16 id s).state :=
  bind_state _ _ (h.pop8 _ _ hs) fun _ _ hs => bind_state _ _ (h.pop8 _ _ hs) fun _ _ hs => hs

theorem Stable.popByte (h : Stable P) (s : State) (hs : P s) : P (popByte s).state := h.pop8 _ _ hs

theorem Stable.popShort (h : Stable P) (s : State) (hs : P s) : P (popShort s).state := h.pop16 _ _ hs

theorem Stable.pushByte (h : Stable P) (v : Byte) (s : State) (hs : P s) : P (pushByte v s).state := h.push8 _ _ _ hs

theorem Stable.popItem (h : Stable P) (s : State) (hs : P s) : P (Machine.pop s).state := by
  unfold Machine.pop
  split
  · exact h.popShort s hs
  · exact bind_state _ _ (h.popByte _ hs) fun _ _ hs => hs

theorem Stable.pushItem (h : Stable P) (v : Word) (s : State) (hs : P s) : P (Machine.push v s).state := by
  unfold Machine.push
  split
  · exact h.push16 _ _ _ hs
  · exact h.pushByte _ _ hs

theorem Stable.pushDst (h : Stable P) (v : Word) (s : State) (hs : P s) : P (Machine.pushDst v s).state := by
  unfold Machine.pushDst
  split
  · exact h.push16 _ _ _ hs
  · exact h.push8 _ _ _ hs

theorem Stable.memWrite (h : Stable P) (wide : Bool) (a v : Word) (s : State) (hs : P s) : P (s.memWrite wide a v) := by
  unfold State.memWrite
  split
  · exact h.ram _ _ _ (h.ram _ _ _ hs)
  · exact h.ram _ _ _ hs

theorem Stable.devWrite (h : Stable P) (wide : Bool) (p : Byte) (v : Word) (s : State) (hs : P s) : P (Machine.devWrite wide p v s) := by
  unfold Machine.devWrite
  split
  · exact h.dev _ _ _ (h.dev _ _ _ hs)
  · exact h.dev _ _ _ hs

theorem Stable.opCompare (h : Stable P) (f : Word → Word → Byte) (s : State) (hs : P s) : P (opCompare f s).state :=
  bind_state _ _ (h.popItem _ hs) fun _ _ hs => bind_state _ _ (h.popItem _ hs) fun _ _ hs => h.pushByte _ _ hs

theorem Stable.opBinary (h : Stable P) (f : Word → Word → Word) (s : State) (hs : P s) : P (opBinary f s).state :=
  bind_state _ _ (h.popItem _ hs) fun _ _ hs => bind_state _ _ (h.popItem _ hs) fun _ _ hs => h.pushItem _ _ hs

theorem Stable.opLit (h : Stable P) (n imm : Word) (s : State) (hs : P s) : P (opLit n imm s).state :=
  h.pushItem _ _ (h.pc _ _ hs)

theorem Stable.opInc (h : Stable P) (s : State) (hs : P s) : P (opInc s).state :=
  bind_state _ _ (h.popItem _ hs) fun _ _ hs => h.pushItem _ _ hs

theorem Stable.opPop (h : Stable P) (s : State) (hs : P s) : P (opPop s).state :=
  bind_state _ _ (h.popItem _ hs) fun _ _ hs => hs

theorem Stable.opNip (h : Stable P) (s : State) (hs : P s) : P (opNip s).state :=
  bind_state _ _ (h.popItem _ hs) fun _ _ hs => bind_state _ _ (h.popItem _ hs) fun _ _ hs => h.pushItem _ _ hs

theorem Stable.opSwp (h : Stable P) (s : State) (hs : P s) : P (opSwp s).state :=
  bind_state _ _ (h.popItem _ hs) fun _ _ hs => bind_state _ _ (h.popItem _ hs) fun _ _ hs =>
    bind_state _ _ (h.pushItem _ _ hs) fun _ _ hs => h.pushItem _ _ hs

theorem Stable.opRot (h : Stable P) (s : State) (hs : P s) : P (opRot s).state :=
  bind_state _ _ (h.popItem _ hs) fun _ _ hs => bind_state _ _ (h.popItem _ hs) fun _ _ hs =>
    bind_state _ _ (h.popItem _ hs) fun _ _ hs => bind_state _ _ (h.pushItem _ _ hs) fun _ _ hs =>
      bind_state _ _ (h.pushItem _ _ hs) fun _ _ hs => h.pushItem _ _ hs

theorem Stable.opDup (h : Stable P) (s : State) (hs : P s) : P (opDup s).state :=
  bind_state _ _ (h.popItem _ hs) fun _ _ hs => bind_state _ _ (h.pushItem _ _ hs) fun _ _ hs => h.pushItem _ _ hs

theorem Stable.opOvr (h : Stable P) (s : State) (hs : P s) : P (opOvr s).state :=
  bind_state _ _ (h.popItem _ hs) fun _ _ hs => bind_state _ _ (h.popItem _ hs) fun _ _ hs =>
    bind_state _ _ (h.pushItem _ _ hs) fun _ _ hs => bind_state _ _ (h.pushItem _ _ hs) fun _ _ hs => h.pushItem _ _ hs

theorem Stable.opJmp (h : Stable P) (s : State) (hs : P s) : P (opJmp s).state :=
  bind_state _ _ (h.popItem _ hs) fun _ _ hs => h.pc _ _ hs

theorem Stable.opJcn (h : Stable P) (s : State) (hs : P s) : P (opJcn s).state :=
  bind_state _ _ (h.popItem _ hs) fun _ _ hs => bind_state _ _ (h.popByte _ hs) fun c s hs => by
    unfold effect Res.state
    dsimp only
    split
    · exact h.pc _ _ hs
    · exact hs

theorem Stable.opJsr (h : Stable P) (s : State) (hs : P s) : P (opJsr s).state :=
  bind_state _ _ (h.push16 _ _ _ hs) fun _ _ hs => bind_state _ _ (h.popItem _ hs) fun _ _ hs => h.pc _ _ hs

theorem Stable.opSth (h : Stable P) (s : State) (hs : P s) : P (opSth s).state :=
  bind_state _ _ (h.popItem _ hs) fun _ _ hs => h.pushDst _ _ hs

theorem Stable.opLdz (h : Stable P) (s : State) (hs : P s) : P (opLdz s).state :=
  bind_state _ _ (h.popByte _ hs) fun _ _ hs => h.pushItem _ _ hs

theorem Stable.opStz (h : Stable P) (s : State) (hs : P s) : P (opStz s).state :=
  bind_state _ _ (h.popByte _ hs) fun _ _ hs => bind_state _ _ (h.popItem _ hs) fun _ _ hs => h.memWrite _ _ _ _ hs

theorem Stable.opLdr (h : Stable P) (s : State) (hs : P s) : P (opLdr s).state :=
  bind_state _ _ (h.popByte _ hs) fun _ _ hs => h.pushItem _ _ hs

theorem Stable.opStr (h : Stable P) (s : State) (hs : P s) : P (opStr s).state :=
  bind_state _ _ (h.popByte _ hs) fun _ _ hs => bind_state _ _ (h.popItem _ hs) fun _ _ hs => h.memWrite _ _ _ _ hs

theorem Stable.opLda (h : Stable P) (s : State) (hs : P s) : P (opLda s).state :=
  bind_state _ _ (h.popShort _ hs) fun _ _ hs => h.pushItem _ _ hs

theorem Stable.opSta (h : Stable P) (s : State) (hs : P s) : P (opSta s).state :=
  bind_state _ _ (h.popShort _ hs) fun _ _ hs => bind_state _ _ (h.popItem _ hs) fun _ _ hs => h.memWrite _ _ _ _ hs

theorem Stable.opDei (h : Stable P) (s : State) (hs : P s) : P (opDei s).state :=
  bind_state _ _ (h.popByte _ hs) fun _ _ hs => h.pushItem _ _ hs

theorem Stable.opDeo (h : Stable P) (s : State) (hs : P s) : P (opDeo s).state :=
  bind_state _ _ (h.popByte _ hs) fun _ _ hs => bind_state _ _ (h.popItem _ hs) fun _ _ hs => h.devWrite _ _ _ _ hs

theorem Stable.opDiv (h : Stable P) (s : State) (hs : P s) : P (opDiv s).state :=
  bind_state _ _ (h.popItem _ hs) fun _ _ hs => bind_state _ _ (h.popItem _ hs) fun _ s hs => by
    split
    · exact hs
    · exact h.pushItem _ _ hs

theorem Stable.opSft (h : Stable P) (s : State) (hs : P s) : P (opSft s).state :=
  bind_state _ _ (h.popByte _ hs) fun _ _ hs => bind_state _ _ (h.popItem _ hs) fun _ _ hs => h.pushItem _ _ hs

/-- How an instruction leaves a state: completed, with no keep pointer held and nothing kept for records; or with the evaluate ended by BRK or by a fatal
error, from a state with `P`. -/
def Left (P : State → Prop) (t : State) : Prop :=
  (P t ∧ t.kptr = none ∧ t.current = none) ∨
  ∃ u o, P u ∧ t = u.endEvaluate o ∧ (o = .haltedBrk ∨ ∃ rec, o = .error rec)

theorem runForm_left (h : Stable P) (b : Byte) (body : State → Res Unit) (s : State) (hs : P s)
    (hb : ∀ u, P u → P (body u).state) : ∃ t, runForm b body s = .next t ∧ Left P t := by
  have hx := hb _ (h.modes b s hs)
  unfold runForm finish
  generalize body (s.decoded b) = x at hx
  cases x with
  | done _ u => exact ⟨_, rfl, .inl ⟨h.current none _ (h.kptr none u hx), rfl, rfl⟩⟩
  | raised e u => exact ⟨_, rfl, .inr ⟨u, _, hx, rfl, .inr ⟨_, rfl⟩⟩⟩

/-- Every instruction answers a next state, which it leaves in one of the ways of `Left`. -/
theorem exec_left (h : Stable P) (i : Instr) (s : State) (hs : P s) : ∃ t, exec i s = .next t ∧ Left P t := by
  cases i
  case brk => exact ⟨_, rfl, .inr ⟨s, _, hs, rfl, .inl rfl⟩⟩
  case lit2 => exact runForm_left h _ _ s hs fun u hu => h.opLit _ _ u hu
  case litr => exact runForm_left h _ _ s hs fun u hu => h.opLit _ _ u hu
  case lit2r => exact runForm_left h _ _ s hs fun u hu => h.opLit _ _ u hu
  case lit => exact runForm_left h _ _ s hs fun u hu => h.opLit _ _ u hu
  case lit2k => exact runForm_left h _ _ s hs fun u hu => h.opLit _ _ u hu
  case litkr => exact runForm_left h _ _ s hs fun u hu => h.opLit _ _ u hu
  case lit2kr => exact runForm_left h _ _ s hs fun u hu => h.opLit _ _ u hu
  case inc | inc2 | incr | inc2r | inck | inc2k | inckr | inc2kr =>
    all_goals exact runForm_left h _ _ s hs fun u hu => h.opInc u hu
  case pop | pop2 | popr | pop2r | popk | pop2k | popkr | pop2kr =>
    all_goals exact runForm_left h _ _ s hs fun u hu => h.opPop u hu
  case nip | nip2 | nipr | nip2r | nipk | nip2k | nipkr | nip2kr =>
    all_goals exact runForm_left h _ _ s hs fun u hu => h.opNip u hu
  case swp | swp2 | swpr | swp2r | swpk | swp2k | swpkr | swp2kr =>
    all_goals exact runForm_left h _ _ s hs fun u hu => h.opSwp u hu
  case rot | rot2 | rotr | rot2r | rotk | rot2k | rotkr | rot2kr =>
    all_goals exact runForm_left h _ _ s hs fun u hu => h.opRot u hu
  case dup | dup2 | dupr | dup2r | dupk | dup2k | dupkr | dup2kr =>
    all_goals exact runForm_left h _ _ s hs fun u hu => h.opDup u hu
  case ovr | ovr2 | ovrr | ovr2r | ovrk | ovr2k | ovrkr | ovr2kr =>
    all_goals exact runForm_left h _ _ s hs fun u hu => h.opOvr u hu
  case equ | equ2 | equr | equ2r | equk | equ2k | equkr | equ2kr =>
    all_goals exact runForm_left h _ _ s hs fun u hu => h.opCompare _ u hu
  case neq | neq2 | neqr | neq2r | neqk | neq2k | neqkr | neq2kr =>
    all_goals exact runForm_left h _ _ s hs fun u hu => h.opCompare _ u hu
  case gth | gth2 | gthr | gth2r | gthk | gth2k | gthkr | gth2kr =>
    all_goals exact runForm_left h _ _ s hs fun u hu => h.opCompare _ u hu
  case lth | lth2 | lthr | lth2r | lthk | lth2k | lthkr | lth2kr =>
    all_goals exact runForm_left h _ _ s hs fun u hu => h.opCompare _ u hu
  case jmp | jmp2 | jmpr | jmp2r | jmpk | jmp2k | jmpkr | jmp2kr =>
    all_goals exact runForm_left h _ _ s hs fun u hu => h.opJmp u hu
  case jcn | jcn2 | jcnr | jcn2r | jcnk | jcn2k | jcnkr | jcn2kr =>
    all_goals exact runForm_left h _ _ s hs fun u hu => h.opJcn u hu
  case jsr | jsr2 | jsrr | jsr2r | jsrk | jsr2k | jsrkr | jsr2kr =>
    all_goals exact runForm_left h _ _ s hs fun u hu => h.opJsr u hu
  case sth | sth2 | sthr | sth2r | sthk | sth2k | sthkr | sth2kr =>
    all_goals exact runForm_left h _ _ s hs fun u hu => h.opSth u hu
  case ldz | ldz2 | ldzr | ldz2r | ldzk | ldz2k | ldzkr | ldz2kr =>
    all_goals exact runForm_left h _ _ s hs fun u hu => h.opLdz u hu
  case stz | stz2 | stzr | stz2r | stzk | stz2k | stzkr | stz2kr =>
    all_goals exact runForm_left h _ _ s hs fun u hu => h.opStz u hu
  case ldr | ldr2 | ldrr | ldr2r | ldrk | ldr2k | ldrkr | ldr2kr =>
    all_goals exact runForm_left h _ _ s hs fun u hu => h.opLdr u hu
  case str | str2 | strr | str2r | strk | str2k | strkr | str2kr =>
    all_goals exact runForm_left h _ _ s hs fun u hu => h.opStr u hu
  case lda | lda2 | ldar | lda2r | ldak | lda2k | ldakr | lda2kr =>
    all_goals exact runForm_left h _ _ s hs fun u hu => h.opLda u hu
  case sta | sta2 | star | sta2r | stak | sta2k | stakr | sta2kr =>
    all_goals exact runForm_left h _ _ s hs fun u hu => h.opSta u hu
  case dei | dei2 | deir | dei2r | deik | dei2k | deikr | dei2kr =>
    all_goals exact runForm_left h _ _ s hs fun u hu => h.opDei u hu
  case deo | deo2 | deor | deo2r | deok | deo2k | deokr | deo2kr =>
    all_goals exact runForm_left h _ _ s hs fun u hu => h.opDeo u hu
  case add | add2 | addr | add2r | addk | add2k | addkr | add2kr =>
    all_goals exact runForm_left h _ _ s hs fun u hu => h.opBinary _ u hu
  case sub | sub2 | subr | sub2r | subk | sub2k | subkr | sub2kr =>
    all_goals exact runForm_left h _ _ s hs fun u hu => h.opBinary _ u hu
  case mul | mul2 | mulr | mul2r | mulk | mul2k | mulkr | mul2kr =>
    all_goals exact runForm_left h _ _ s hs fun u hu => h.opBinary _ u hu
  case div | div2 | divr | div2r | divk | div2k | divkr | div2kr =>
    all_goals exact runForm_left h _ _ s hs fun u hu => h.opDiv u hu
  case and | and2 | andr | and2r | andk | and2k | andkr | and2kr =>
    all_goals exact runForm_left h _ _ s hs fun u hu => h.opBinary _ u hu
  case ora | ora2 | orar | ora2r | orak | ora2k | orakr | ora2kr =>
    all_goals exact runForm_left h _ _ s hs fun u hu => h.opBinary _ u hu
  case eor | eor2 | eorr | eor2r | eork | eor2k | eorkr | eor2kr =>
    all_goals exact runForm_left h _ _ s hs fun u hu => h.opBinary _ u hu
  case sft | sft2 | sftr | sft2r | sftk | sft2k | sftkr | sft2kr =>
    all_goals exact runForm_left h _ _ s hs fun u hu => h.opSft u hu

end Sys2Proof.Machine
end

