-- ==== Sys2Proof/Tests/Slice0.lean ====
section
/-! SUPPORT. Tests. Expected values come from the spec: the opcode map of 30_encoding R92 and opcode_table.json, and the vectors of
95_test_vectors, named in each docstring; and a witness for each statement that has hypotheses. -/
namespace Sys2Proof.Machine

/-! ### Helpers -/

/-- A stack that holds `bytes`, bottom to top. -/
def stackOf (bytes : List Byte) : Stack := Stack.empty.stored 0 bytes

/-- The bytes of a stack, bottom to top. -/
def Stack.shown (st : Stack) : List Byte := (List.range st.ptr.toNat).map st.cell

/-- The created machine in an evaluate at `pc`, with `code` there, and the stacks W and R as given. -/
def begun (pc : Word) (code w r : List Byte) : State :=
  { ((State.reset.enterEvaluate 0x0100).storeBytes pc code) with pc := pc, wst := stackOf w, rst := stackOf r }

/-- The created machine in an evaluate, with the depths of W and R as given and every byte 0. -/
def deep (w r : Byte) : State :=
  { State.reset.enterEvaluate 0x0100 with wst := ⟨[], w⟩, rst := ⟨[], r⟩ }

/-- The state after one step; the same state where there is none. -/
def stepped (s : State) : State :=
  match step s with
  | .next t => t
  | _ => s

/-- W and R after one step from 0x0100. -/
def stacksAfter (code w r : List Byte) : List Byte × List Byte :=
  let t := stepped (begun 0x0100 code w r)
  (t.wst.shown, t.rst.shown)

/-- The program counter and W and R after one step from `pc`. -/
def jumpAfter (pc : Word) (code w r : List Byte) : Word × List Byte × List Byte :=
  let t := stepped (begun pc code w r)
  (t.pc, t.wst.shown, t.rst.shown)

/-- A record of 60_exceptions R276 as the outcome. -/
def errs (k : FatalKind) (st : StackId) (op : Byte) (a : Word) (depth : Byte) : Option EvalOutcome :=
  some (.error ⟨k.code, k, st, op, a, depth⟩)

/-- The state with device bytes stored, no handler run. -/
def State.withDev (s : State) (ports : List (Byte × Byte)) : State := ports.foldl (fun t c => t.setDevByte c.1 c.2) s

/-! ### Well-formedness -/

/-- 70_reset R310: an image of 0xFF00 bytes fits, one more byte does not. -/
theorem test_image_fits : imageFits (List.replicate 0xFF00 0) = true ∧ imageFits (List.replicate 0xFF01 0) = false := by
  simp only [imageFits, List.length_replicate]; decide

/-- A budget of 0 is refused (log 3), a budget of 1 is not. -/
theorem test_config_refuses_budget_zero :
    ({ Config.default with budget := 0 } : Config).wellFormed = false ∧
    ({ Config.default with budget := 1 } : Config).wellFormed = true := by decide

/-- Every instruction term is well-formed: its immediate has its type's width (log 11). -/
theorem test_lit_wellFormed : (Instr.lit2 0xFFFF).wellFormed = true := by decide

/-! ### Decoding: every opcode byte, from the map of 30_encoding R92 -/

theorem test_decode_inc :
    ([0x01, 0x21, 0x41, 0x61, 0x81, 0xA1, 0xC1, 0xE1] : List Nat).map (decodeTableWord 8) =
      ([.inc, .inc2, .incr, .inc2r, .inck, .inc2k, .inckr, .inc2kr] : List Instr).map some := by decide

theorem test_decode_pop :
    ([0x02, 0x22, 0x42, 0x62, 0x82, 0xA2, 0xC2, 0xE2] : List Nat).map (decodeTableWord 8) =
      ([.pop, .pop2, .popr, .pop2r, .popk, .pop2k, .popkr, .pop2kr] : List Instr).map some := by decide

theorem test_decode_nip :
    ([0x03, 0x23, 0x43, 0x63, 0x83, 0xA3, 0xC3, 0xE3] : List Nat).map (decodeTableWord 8) =
      ([.nip, .nip2, .nipr, .nip2r, .nipk, .nip2k, .nipkr, .nip2kr] : List Instr).map some := by decide

theorem test_decode_swp :
    ([0x04, 0x24, 0x44, 0x64, 0x84, 0xA4, 0xC4, 0xE4] : List Nat).map (decodeTableWord 8) =
      ([.swp, .swp2, .swpr, .swp2r, .swpk, .swp2k, .swpkr, .swp2kr] : List Instr).map some := by decide

theorem test_decode_rot :
    ([0x05, 0x25, 0x45, 0x65, 0x85, 0xA5, 0xC5, 0xE5] : List Nat).map (decodeTableWord 8) =
      ([.rot, .rot2, .rotr, .rot2r, .rotk, .rot2k, .rotkr, .rot2kr] : List Instr).map some := by decide

theorem test_decode_dup :
    ([0x06, 0x26, 0x46, 0x66, 0x86, 0xA6, 0xC6, 0xE6] : List Nat).map (decodeTableWord 8) =
      ([.dup, .dup2, .dupr, .dup2r, .dupk, .dup2k, .dupkr, .dup2kr] : List Instr).map some := by decide

theorem test_decode_ovr :
    ([0x07, 0x27, 0x47, 0x67, 0x87, 0xA7, 0xC7, 0xE7] : List Nat).map (decodeTableWord 8) =
      ([.ovr, .ovr2, .ovrr, .ovr2r, .ovrk, .ovr2k, .ovrkr, .ovr2kr] : List Instr).map some := by decide

theorem test_decode_equ :
    ([0x08, 0x28, 0x48, 0x68, 0x88, 0xA8, 0xC8, 0xE8] : List Nat).map (decodeTableWord 8) =
      ([.equ, .equ2, .equr, .equ2r, .equk, .equ2k, .equkr, .equ2kr] : List Instr).map some := by decide

theorem test_decode_neq :
    ([0x09, 0x29, 0x49, 0x69, 0x89, 0xA9, 0xC9, 0xE9] : List Nat).map (decodeTableWord 8) =
      ([.neq, .neq2, .neqr, .neq2r, .neqk, .neq2k, .neqkr, .neq2kr] : List Instr).map some := by decide

theorem test_decode_gth :
    ([0x0A, 0x2A, 0x4A, 0x6A, 0x8A, 0xAA, 0xCA, 0xEA] : List Nat).map (decodeTableWord 8) =
      ([.gth, .gth2, .gthr, .gth2r, .gthk, .gth2k, .gthkr, .gth2kr] : List Instr).map some := by decide

theorem test_decode_lth :
    ([0x0B, 0x2B, 0x4B, 0x6B, 0x8B, 0xAB, 0xCB, 0xEB] : List Nat).map (decodeTableWord 8) =
      ([.lth, .lth2, .lthr, .lth2r, .lthk, .lth2k, .lthkr, .lth2kr] : List Instr).map some := by decide

theorem test_decode_jmp :
    ([0x0C, 0x2C, 0x4C, 0x6C, 0x8C, 0xAC, 0xCC, 0xEC] : List Nat).map (decodeTableWord 8) =
      ([.jmp, .jmp2, .jmpr, .jmp2r, .jmpk, .jmp2k, .jmpkr, .jmp2kr] : List Instr).map some := by decide

theorem test_decode_jcn :
    ([0x0D, 0x2D, 0x4D, 0x6D, 0x8D, 0xAD, 0xCD, 0xED] : List Nat).map (decodeTableWord 8) =
      ([.jcn, .jcn2, .jcnr, .jcn2r, .jcnk, .jcn2k, .jcnkr, .jcn2kr] : List Instr).map some := by decide

theorem test_decode_jsr :
    ([0x0E, 0x2E, 0x4E, 0x6E, 0x8E, 0xAE, 0xCE, 0xEE] : List Nat).map (decodeTableWord 8) =
      ([.jsr, .jsr2, .jsrr, .jsr2r, .jsrk, .jsr2k, .jsrkr, .jsr2kr] : List Instr).map some := by decide

theorem test_decode_sth :
    ([0x0F, 0x2F, 0x4F, 0x6F, 0x8F, 0xAF, 0xCF, 0xEF] : List Nat).map (decodeTableWord 8) =
      ([.sth, .sth2, .sthr, .sth2r, .sthk, .sth2k, .sthkr, .sth2kr] : List Instr).map some := by decide

theorem test_decode_ldz :
    ([0x10, 0x30, 0x50, 0x70, 0x90, 0xB0, 0xD0, 0xF0] : List Nat).map (decodeTableWord 8) =
      ([.ldz, .ldz2, .ldzr, .ldz2r, .ldzk, .ldz2k, .ldzkr, .ldz2kr] : List Instr).map some := by decide

theorem test_decode_stz :
    ([0x11, 0x31, 0x51, 0x71, 0x91, 0xB1, 0xD1, 0xF1] : List Nat).map (decodeTableWord 8) =
      ([.stz, .stz2, .stzr, .stz2r, .stzk, .stz2k, .stzkr, .stz2kr] : List Instr).map some := by decide

theorem test_decode_ldr :
    ([0x12, 0x32, 0x52, 0x72, 0x92, 0xB2, 0xD2, 0xF2] : List Nat).map (decodeTableWord 8) =
      ([.ldr, .ldr2, .ldrr, .ldr2r, .ldrk, .ldr2k, .ldrkr, .ldr2kr] : List Instr).map some := by decide

theorem test_decode_str :
    ([0x13, 0x33, 0x53, 0x73, 0x93, 0xB3, 0xD3, 0xF3] : List Nat).map (decodeTableWord 8) =
      ([.str, .str2, .strr, .str2r, .strk, .str2k, .strkr, .str2kr] : List Instr).map some := by decide

theorem test_decode_lda :
    ([0x14, 0x34, 0x54, 0x74, 0x94, 0xB4, 0xD4, 0xF4] : List Nat).map (decodeTableWord 8) =
      ([.lda, .lda2, .ldar, .lda2r, .ldak, .lda2k, .ldakr, .lda2kr] : List Instr).map some := by decide

theorem test_decode_sta :
    ([0x15, 0x35, 0x55, 0x75, 0x95, 0xB5, 0xD5, 0xF5] : List Nat).map (decodeTableWord 8) =
      ([.sta, .sta2, .star, .sta2r, .stak, .sta2k, .stakr, .sta2kr] : List Instr).map some := by decide

theorem test_decode_dei :
    ([0x16, 0x36, 0x56, 0x76, 0x96, 0xB6, 0xD6, 0xF6] : List Nat).map (decodeTableWord 8) =
      ([.dei, .dei2, .deir, .dei2r, .deik, .dei2k, .deikr, .dei2kr] : List Instr).map some := by decide

theorem test_decode_deo :
    ([0x17, 0x37, 0x57, 0x77, 0x97, 0xB7, 0xD7, 0xF7] : List Nat).map (decodeTableWord 8) =
      ([.deo, .deo2, .deor, .deo2r, .deok, .deo2k, .deokr, .deo2kr] : List Instr).map some := by decide

theorem test_decode_add :
    ([0x18, 0x38, 0x58, 0x78, 0x98, 0xB8, 0xD8, 0xF8] : List Nat).map (decodeTableWord 8) =
      ([.add, .add2, .addr, .add2r, .addk, .add2k, .addkr, .add2kr] : List Instr).map some := by decide

theorem test_decode_sub :
    ([0x19, 0x39, 0x59, 0x79, 0x99, 0xB9, 0xD9, 0xF9] : List Nat).map (decodeTableWord 8) =
      ([.sub, .sub2, .subr, .sub2r, .subk, .sub2k, .subkr, .sub2kr] : List Instr).map some := by decide

theorem test_decode_mul :
    ([0x1A, 0x3A, 0x5A, 0x7A, 0x9A, 0xBA, 0xDA, 0xFA] : List Nat).map (decodeTableWord 8) =
      ([.mul, .mul2, .mulr, .mul2r, .mulk, .mul2k, .mulkr, .mul2kr] : List Instr).map some := by decide

theorem test_decode_div :
    ([0x1B, 0x3B, 0x5B, 0x7B, 0x9B, 0xBB, 0xDB, 0xFB] : List Nat).map (decodeTableWord 8) =
      ([.div, .div2, .divr, .div2r, .divk, .div2k, .divkr, .div2kr] : List Instr).map some := by decide

theorem test_decode_and :
    ([0x1C, 0x3C, 0x5C, 0x7C, 0x9C, 0xBC, 0xDC, 0xFC] : List Nat).map (decodeTableWord 8) =
      ([.and, .and2, .andr, .and2r, .andk, .and2k, .andkr, .and2kr] : List Instr).map some := by decide

theorem test_decode_ora :
    ([0x1D, 0x3D, 0x5D, 0x7D, 0x9D, 0xBD, 0xDD, 0xFD] : List Nat).map (decodeTableWord 8) =
      ([.ora, .ora2, .orar, .ora2r, .orak, .ora2k, .orakr, .ora2kr] : List Instr).map some := by decide

theorem test_decode_eor :
    ([0x1E, 0x3E, 0x5E, 0x7E, 0x9E, 0xBE, 0xDE, 0xFE] : List Nat).map (decodeTableWord 8) =
      ([.eor, .eor2, .eorr, .eor2r, .eork, .eor2k, .eorkr, .eor2kr] : List Instr).map some := by decide

theorem test_decode_sft :
    ([0x1F, 0x3F, 0x5F, 0x7F, 0x9F, 0xBF, 0xDF, 0xFF] : List Nat).map (decodeTableWord 8) =
      ([.sft, .sft2, .sftr, .sft2r, .sftk, .sft2k, .sftkr, .sft2kr] : List Instr).map some := by decide

/-- BRK and the seven LIT forms; the short's high byte is the first byte after the opcode (30_encoding R95). -/
theorem test_decode_brk_lit :
    decodeTableWord 8 0x00 = some .brk ∧ decodeTableWord 16 0xAB80 = some (.lit 0xAB) ∧
    decodeTableWord 16 0xAB40 = some (.litr 0xAB) ∧ decodeTableWord 16 0xABC0 = some (.litkr 0xAB) ∧
    decodeTableWord 24 0x341220 = some (.lit2 0x1234) ∧ decodeTableWord 24 0x341260 = some (.lit2r 0x1234) ∧
    decodeTableWord 24 0x3412A0 = some (.lit2k 0x1234) ∧ decodeTableWord 24 0x3412E0 = some (.lit2kr 0x1234) := by decide

/-- Bits above the given ones are 0: the immediate of a LIT with only its opcode given. -/
theorem test_decode_short_word : decodeTableWord 8 0xFFFF80 = some (.lit 0x00) := by decide

/-- A LIT whose immediate is cut off, and no byte at all, are rejected by name. -/
theorem test_decode_rejects :
    decode [0x20, 0x12] = .error .immediateCutShort ∧ decode [0x80] = .error .immediateCutShort ∧
    decode [] = .error .noOpcode := by decide

/-- The host's fetch of a word: the step after `withFetchWord` runs it as the first instruction. -/
theorem test_withFetchWord : (stepped (State.reset.withFetchWord 24 0x341220)).wst.shown = [0x12, 0x34] := by decide

/-! ### One step of each operation -/

/-- V-STK-1. -/
theorem test_lit : stacksAfter [0x80, 0x02] [] [] = ([0x02], []) := by decide

/-- V-STK-2. -/
theorem test_lit2 : stacksAfter [0x20, 0x12, 0x34] [] [] = ([0x12, 0x34], []) := by decide

/-- V-STK-3. -/
theorem test_litr : stacksAfter [0x40, 0xAB] [] [] = ([], [0xAB]) := by decide

/-- V-STK-4: k has no effect. -/
theorem test_lit2kr : stacksAfter [0xE0, 0x01, 0x02] [] [] = ([], [0x01, 0x02]) := by decide

/-- V-STK-7. -/
theorem test_inc : stacksAfter [0x01] [0xFF] [] = ([0x00], []) := by decide

/-- V-STK-8. -/
theorem test_inc2 : stacksAfter [0x21] [0x00, 0xFF] [] = ([0x01, 0x00], []) := by decide

/-- V-STK-9. -/
theorem test_inc2_wraps : stacksAfter [0x21] [0xFF, 0xFF] [] = ([0x00, 0x00], []) := by decide

/-- V-STK-10. -/
theorem test_inck : stacksAfter [0x81] [0x07] [] = ([0x07, 0x08], []) := by decide

/-- V-STK-14. -/
theorem test_pop : stacksAfter [0x02] [0x01, 0x02] [] = ([0x01], []) := by decide

/-- V-STK-15. -/
theorem test_pop2 : stacksAfter [0x22] [0x12, 0x34, 0x56] [] = ([0x12], []) := by decide

/-- V-STK-16. -/
theorem test_popk : stacksAfter [0x82] [0x01] [] = ([0x01], []) := by decide

/-- V-STK-19. -/
theorem test_nip : stacksAfter [0x03] [0x12, 0x34] [] = ([0x34], []) := by decide

/-- V-STK-20. -/
theorem test_nip2 : stacksAfter [0x23] [0x12, 0x34, 0x56, 0x78] [] = ([0x56, 0x78], []) := by decide

/-- V-STK-21. -/
theorem test_nipk : stacksAfter [0x83] [0x12, 0x34] [] = ([0x12, 0x34, 0x34], []) := by decide

/-- V-STK-23. -/
theorem test_swp : stacksAfter [0x04] [0x12, 0x34] [] = ([0x34, 0x12], []) := by decide

/-- V-STK-24. -/
theorem test_swp2 : stacksAfter [0x24] [0x12, 0x34, 0x56, 0x78] [] = ([0x56, 0x78, 0x12, 0x34], []) := by decide

/-- V-STK-25. -/
theorem test_swpk : stacksAfter [0x84] [0x12, 0x34] [] = ([0x12, 0x34, 0x34, 0x12], []) := by decide

/-- V-STK-26. -/
theorem test_swpr : stacksAfter [0x44] [] [0x01, 0x02] = ([], [0x02, 0x01]) := by decide

/-- V-STK-27. -/
theorem test_rot : stacksAfter [0x05] [0x11, 0x22, 0x33] [] = ([0x22, 0x33, 0x11], []) := by decide

/-- V-STK-28. -/
theorem test_rot2 : stacksAfter [0x25] [0x01, 0x02, 0x03, 0x04, 0x05, 0x06] [] = ([0x03, 0x04, 0x05, 0x06, 0x01, 0x02], []) := by decide

/-- V-STK-29. -/
theorem test_rotk : stacksAfter [0x85] [0x11, 0x22, 0x33] [] = ([0x11, 0x22, 0x33, 0x22, 0x33, 0x11], []) := by decide

/-- V-STK-31. -/
theorem test_dup : stacksAfter [0x06] [0x12] [] = ([0x12, 0x12], []) := by decide

/-- V-STK-32. -/
theorem test_dup2 : stacksAfter [0x26] [0x12, 0x34] [] = ([0x12, 0x34, 0x12, 0x34], []) := by decide

/-- V-STK-33. -/
theorem test_dupk : stacksAfter [0x86] [0x12] [] = ([0x12, 0x12, 0x12], []) := by decide

/-- V-STK-35. -/
theorem test_ovr : stacksAfter [0x07] [0x12, 0x34] [] = ([0x12, 0x34, 0x12], []) := by decide

/-- V-STK-36. -/
theorem test_ovr2 : stacksAfter [0x27] [0x01, 0x02, 0x03, 0x04] [] = ([0x01, 0x02, 0x03, 0x04, 0x01, 0x02], []) := by decide

/-- V-STK-37. -/
theorem test_ovrk : stacksAfter [0x87] [0x12, 0x34] [] = ([0x12, 0x34, 0x12, 0x34, 0x12], []) := by decide

/-- V-CJS-1. -/
theorem test_equ : stacksAfter [0x08] [0x12, 0x12] [] = ([0x01], []) := by decide

/-- V-CJS-2. -/
theorem test_equ2 : stacksAfter [0x28] [0x12, 0x34, 0x12, 0x34] [] = ([0x01], []) := by decide

/-- V-CJS-3. -/
theorem test_equk : stacksAfter [0x88] [0x05, 0x06] [] = ([0x05, 0x06, 0x00], []) := by decide

/-- V-CJS-5. -/
theorem test_neq : stacksAfter [0x09] [0x12, 0x34] [] = ([0x01], []) := by decide

/-- V-CJS-6. -/
theorem test_neq2 : stacksAfter [0x29] [0x00, 0x07, 0x00, 0x07] [] = ([0x00], []) := by decide

/-- V-CJS-7. -/
theorem test_gth : stacksAfter [0x0A] [0x80, 0x7F] [] = ([0x01], []) := by decide

/-- V-CJS-8. -/
theorem test_gth2 : stacksAfter [0x2A] [0x01, 0x00, 0x00, 0xFF] [] = ([0x01], []) := by decide

/-- V-CJS-9. -/
theorem test_lth : stacksAfter [0x0B] [0xFF, 0x00] [] = ([0x00], []) := by decide

/-- V-CJS-11. -/
theorem test_lth_equal : stacksAfter [0x0B] [0x04, 0x04] [] = ([0x00], []) := by decide

/-- V-CJS-10. -/
theorem test_lth2 : stacksAfter [0x2B] [0x01, 0x00, 0x00, 0xFF] [] = ([0x00], []) := by decide

/-- V-CJS-25. -/
theorem test_sth : stacksAfter [0x0F] [0x12] [] = ([], [0x12]) := by decide

/-- V-CJS-26. -/
theorem test_sth2r : stacksAfter [0x6F] [] [0xAB, 0xCD] = ([0xAB, 0xCD], []) := by decide

/-- V-CJS-27. -/
theorem test_sthk : stacksAfter [0x8F] [0x12] [] = ([0x12], [0x12]) := by decide

/-- V-MEM-3: the second byte is the opcode at 0x0100. -/
theorem test_ldz2_reads_past_the_page : stacksAfter [0x30] [0xFF] [] = ([0x00, 0x30], []) := by decide

/-- V-ALU-1. -/
theorem test_add : stacksAfter [0x18] [0x02, 0x03] [] = ([0x05], []) := by decide

/-- V-ALU-2. -/
theorem test_add_wraps : stacksAfter [0x18] [0xFF, 0x02] [] = ([0x01], []) := by decide

/-- V-ALU-3. -/
theorem test_add2 : stacksAfter [0x38] [0x00, 0xFF, 0x00, 0x01] [] = ([0x01, 0x00], []) := by decide

/-- V-ALU-5. -/
theorem test_addk : stacksAfter [0x98] [0x02, 0x03] [] = ([0x02, 0x03, 0x05], []) := by decide

/-- V-SRC-2. -/
theorem test_add2k : stacksAfter [0xB8] [0x12, 0x34, 0x00, 0x01] [] = ([0x12, 0x34, 0x00, 0x01, 0x12, 0x35], []) := by decide

/-- V-ALU-6. -/
theorem test_sub : stacksAfter [0x19] [0x05, 0x03] [] = ([0x02], []) := by decide

/-- V-ALU-7. -/
theorem test_sub_wraps : stacksAfter [0x19] [0x03, 0x05] [] = ([0xFE], []) := by decide

/-- V-ALU-8. -/
theorem test_sub2 : stacksAfter [0x39] [0x00, 0x00, 0x00, 0x01] [] = ([0xFF, 0xFF], []) := by decide

/-- V-ALU-9. -/
theorem test_mul : stacksAfter [0x1A] [0x03, 0x04] [] = ([0x0C], []) := by decide

/-- V-ALU-10. -/
theorem test_mul_wraps : stacksAfter [0x1A] [0x20, 0x09] [] = ([0x20], []) := by decide

/-- V-ALU-12. -/
theorem test_mul2 : stacksAfter [0x3A] [0x01, 0x00, 0x01, 0x01] [] = ([0x01, 0x00], []) := by decide

/-- V-ALU-13. -/
theorem test_div : stacksAfter [0x1B] [0x07, 0x02] [] = ([0x03], []) := by decide

/-- V-ALU-14. -/
theorem test_div_unsigned : stacksAfter [0x1B] [0xFF, 0x02] [] = ([0x7F], []) := by decide

/-- V-ALU-16. -/
theorem test_div2 : stacksAfter [0x3B] [0xFF, 0xFF, 0x00, 0x10] [] = ([0x0F, 0xFF], []) := by decide

/-- V-ALU-20. -/
theorem test_and : stacksAfter [0x1C] [0xF0, 0x3C] [] = ([0x30], []) := by decide

/-- V-ALU-21. -/
theorem test_and2 : stacksAfter [0x3C] [0x12, 0x34, 0x0F, 0xF0] [] = ([0x02, 0x30], []) := by decide

/-- V-ALU-22. -/
theorem test_ora : stacksAfter [0x1D] [0xF0, 0x3C] [] = ([0xFC], []) := by decide

/-- V-ALU-23. -/
theorem test_eor : stacksAfter [0x1E] [0xF0, 0x3C] [] = ([0xCC], []) := by decide

/-- V-ALU-26. -/
theorem test_sft : stacksAfter [0x1F] [0x34, 0x33] [] = ([0x30], []) := by decide

/-- V-ALU-27. -/
theorem test_sft_right_by_8 : stacksAfter [0x1F] [0xFF, 0x08] [] = ([0x00], []) := by decide

/-- V-ALU-30. -/
theorem test_sft2_left : stacksAfter [0x3F] [0x12, 0x34, 0x40] [] = ([0x23, 0x40], []) := by decide

/-- V-ALU-29. -/
theorem test_sft2_right : stacksAfter [0x3F] [0x80, 0x00, 0x0F] [] = ([0x00, 0x01], []) := by decide

/-- V-ALU-31. -/
theorem test_sftk : stacksAfter [0x9F] [0x81, 0x11] [] = ([0x81, 0x11, 0x80], []) := by decide

/-- V-CJS-12. -/
theorem test_jmp : jumpAfter 0x0100 [0x0C] [0x02] [] = (0x0103, [], []) := by decide

/-- V-CJS-13. -/
theorem test_jmp_back : jumpAfter 0x0110 [0x0C] [0xFE] [] = (0x010F, [], []) := by decide

/-- V-CJS-14. -/
theorem test_jmp2 : jumpAfter 0x0100 [0x2C] [0x12, 0x34] [] = (0x1234, [], []) := by decide

/-- V-CJS-15. -/
theorem test_jmpk : jumpAfter 0x0100 [0x8C] [0x02] [] = (0x0103, [0x02], []) := by decide

/-- V-CJS-16. -/
theorem test_jcn : jumpAfter 0x0100 [0x0D] [0x01, 0x02] [] = (0x0103, [], []) := by decide

/-- V-CJS-17. -/
theorem test_jcn_not_taken : jumpAfter 0x0100 [0x0D] [0x00, 0x02] [] = (0x0101, [], []) := by decide

/-- V-CJS-18. -/
theorem test_jcn2 : jumpAfter 0x0100 [0x2D] [0x01, 0x12, 0x34] [] = (0x1234, [], []) := by decide

/-- V-CJS-20. -/
theorem test_jsr : jumpAfter 0x0100 [0x0E] [0x03] [] = (0x0104, [], [0x01, 0x01]) := by decide

/-- V-CJS-21. -/
theorem test_jsr2 : jumpAfter 0x0100 [0x2E] [0x12, 0x34] [] = (0x1234, [], [0x01, 0x01]) := by decide

/-- V-CJS-22. -/
theorem test_jsrr : jumpAfter 0x0100 [0x4E] [] [0x12, 0x34] = (0x0135, [0x01, 0x01], [0x12]) := by decide

/-- V-CJS-29, its second instruction. -/
theorem test_jsr2k : jumpAfter 0x0103 [0xAE] [0x01, 0x06] [] = (0x0106, [0x01, 0x06], [0x01, 0x04]) := by decide

/-- V-MEM-9. -/
theorem test_ldr_own_opcode : jumpAfter 0x0120 [0x12] [0xFF] [] = (0x0121, [0x12], []) := by decide

/-- V-MEM-1 and V-MEM-2. -/
theorem test_ldz : (stepped ((begun 0x0100 [0x10] [0x10] []).setRamByte 0x0010 0xAB)).wst.shown = [0xAB] ∧
    (stepped (((begun 0x0100 [0x30] [0x10] []).setRamByte 0x0010 0xAB).setRamByte 0x0011 0xCD)).wst.shown = [0xAB, 0xCD] := by
  decide

/-- V-MEM-4 and V-MEM-6. -/
theorem test_stz : (stepped (begun 0x0100 [0x11] [0xAB, 0x10] [])).ramByte 0x0010 = 0xAB ∧
    (stepped (begun 0x0100 [0x91] [0xAB, 0x10] [])).wst.shown = [0xAB, 0x10] := by decide

/-- V-MEM-5. -/
theorem test_stz2 : let t := stepped (begun 0x0100 [0x31] [0x12, 0x34, 0x20] [])
    (t.ramByte 0x0020, t.ramByte 0x0021, t.wst.shown) = (0x12, 0x34, []) := by decide

/-- V-MEM-8. -/
theorem test_ldr : (stepped ((begun 0x0120 [0x12] [0x05] []).setRamByte 0x0126 0x99)).wst.shown = [0x99] := by decide

/-- V-MEM-10. -/
theorem test_str : (stepped (begun 0x0130 [0x13] [0x77, 0xFE] [])).ramByte 0x012F = 0x77 := by decide

/-- V-MEM-11. -/
theorem test_lda : (stepped ((begun 0x0100 [0x14] [0x12, 0x34] []).setRamByte 0x1234 0x56)).wst.shown = [0x56] := by decide

/-- V-MEM-12: the second address wraps. -/
theorem test_lda2_wraps :
    (stepped (((begun 0x0100 [0x34] [0xFF, 0xFF] []).setRamByte 0xFFFF 0xAA).setRamByte 0x0000 0xBB)).wst.shown = [0xAA, 0xBB] := by
  decide

/-- V-MEM-13. -/
theorem test_sta : (stepped (begun 0x0100 [0x15] [0x56, 0x12, 0x34] [])).ramByte 0x1234 = 0x56 := by decide

/-- V-MEM-14: the second address wraps. -/
theorem test_sta2_wraps : let t := stepped (begun 0x0100 [0x35] [0xAA, 0xBB, 0xFF, 0xFF] [])
    (t.ramByte 0xFFFF, t.ramByte 0x0000) = (0xAA, 0xBB) := by decide

/-- V-MEM-16. -/
theorem test_dei : (stepped ((begun 0x0100 [0x16] [0x2A] []).withDev [(0x2A, 0x01)])).wst.shown = [0x01] := by decide

/-- V-MEM-18: the port wraps mod 256. -/
theorem test_dei2_wraps :
    (stepped ((begun 0x0100 [0x36] [0xFF] []).withDev [(0xFF, 0x01), (0x00, 0x02)])).wst.shown = [0x01, 0x02] := by decide

/-- V-MEM-19 and V-MEM-20. -/
theorem test_deo : (stepped (begun 0x0100 [0x17] [0x41, 0x18] [])).consoleOut = [0x41] ∧
    (stepped (begun 0x0100 [0x17] [0x55, 0x30] [])).diagnostics = [⟨0x10, .unmappedDevicePort 0x30 0x55, 0x0100⟩] := by decide

/-- V-MEM-21: two records, the high byte's first. -/
theorem test_deo2 : (stepped (begun 0x0100 [0x37] [0x55, 0x66, 0x3F] [])).diagnostics =
    [⟨0x10, .unmappedDevicePort 0x3F 0x55, 0x0100⟩, ⟨0x10, .unmappedDevicePort 0x40 0x66, 0x0100⟩] := by decide

/-! ### BRK, halting, the budget, and the fatal errors -/

/-- V-EXE-2. -/
theorem test_brk : stepped (State.reset.evaluate 0x0100) =
    { State.reset with outcome := some .haltedBrk, loadOpen := false } := by decide

/-- V-EXE-1 and V-EXE-3. -/
theorem test_evaluate_noOp : State.reset.evaluate 0x0000 = { State.reset with outcome := some .noOp } ∧
    ((State.reset.withDev [(0x0F, 0x01)]).evaluate 0x0100).outcome = some .noOp := by decide

/-- V-MEM-22: the write to 0x0F ends the evaluate after the DEO. -/
theorem test_halt_port : let t := stepped (begun 0x0100 [0x17, 0x80, 0x01] [0x01, 0x0F] [])
    (t.outcome, t.running, t.wst.shown) = (some .haltedPort, false, []) := by decide

/-- V-EXE-4: the last of the budgeted instructions ends the evaluate with Timeout. -/
theorem test_timeout :
    let s := begun 0x0100 [0x80, 0xFD, 0x0C] [] []
    let t := stepped { s with budget := 1, cfg := { s.cfg with budget := 5, budgetPolicy := .abort } }
    (t.outcome, t.budget, t.wst.shown) = (some .timeout, 5, [0xFD]) := by decide

/-- V-EXE-5: with Continue the budget is refilled. -/
theorem test_budget_refilled :
    let t := stepped { begun 0x0100 [0x80, 0xFD, 0x0C] [] [] with budget := 1 }
    (t.running, t.budget) = (true, 0x40000) := by decide

/-- V-STK-6: the first byte of the short lands, the second overflows. -/
theorem test_overflow_partial : let t := stepped { deep 254 0 with ram := [(0x100, 0x20), (0x101, 0x01), (0x102, 0x02)] }
    (t.outcome, t.wst.ptr, t.wst.cell 254) = (errs .stackOverflow .w 0x20 0x0100 255, 255, 0x01) := by decide

/-- V-STK-12: the byte that was there is popped. -/
theorem test_underflow_partial : let t := stepped (begun 0x0100 [0x21] [0x05] [])
    (t.outcome, t.wst.shown) = (errs .stackUnderflow .w 0x21 0x0100 0, []) := by decide

/-- V-STK-17: keep mode underflows too. -/
theorem test_underflow_keep : (stepped (begun 0x0100 [0x82] [] [])).outcome = errs .stackUnderflow .w 0x82 0x0100 0 := by decide

/-- V-CJS-23: the stash overflows R before the target is popped. -/
theorem test_jsr_overflow : let t := stepped { deep 1 254 with ram := [(0x100, 0x0E)] }
    (t.outcome, t.wst.ptr, t.rst.ptr, t.rst.cell 254) = (errs .stackOverflow .r 0x0E 0x0100 255, 1, 255, 0x01) := by decide

/-- V-CJS-24: the stash comes before the underflow. -/
theorem test_jsr_underflow : let t := stepped (begun 0x0100 [0x0E] [] [])
    (t.outcome, t.rst.shown) = (errs .stackUnderflow .w 0x0E 0x0100 0, [0x01, 0x01]) := by decide

/-- V-CJS-28: the pop comes before the overflow of R. -/
theorem test_sth_overflow : let t := stepped { deep 1 255 with ram := [(0x100, 0x0F)] }
    (t.outcome, t.wst.ptr, t.rst.ptr) = (errs .stackOverflow .r 0x0F 0x0100 255, 0, 255) := by decide

/-- V-ALU-17 and V-ALU-18: both operands are popped, unless kept. -/
theorem test_div_by_zero :
    (let t := stepped (begun 0x0100 [0x1B] [0x07, 0x00] [])
     (t.outcome, t.wst.shown) = (errs .divisionByZero .w 0x1B 0x0100 0, [])) ∧
    (let t := stepped (begun 0x0100 [0x9B] [0x07, 0x00] [])
     (t.outcome, t.wst.shown) = (errs .divisionByZero .w 0x9B 0x0100 2, [0x07, 0x00])) := by decide

/-- V-ALU-19: the underflow comes before the divisor is looked at. -/
theorem test_div_underflow : (stepped (begun 0x0100 [0x1B] [0x00] [])).outcome = errs .stackUnderflow .w 0x1B 0x0100 0 := by decide

/-! ### The palette and the screen -/

/-- V-MEM-23. -/
theorem test_palette : let p := (stepped (begun 0x0100 [0x17] [0xF7, 0x08] [])).palette
    (p.c0, p.c1, p.c2, p.c3) = (⟨0xFF, 0, 0⟩, ⟨0x77, 0, 0⟩, .black, .black) := by decide

/-- V-MEM-24: the resize comes at the write to 0x23. -/
theorem test_resize : let sc := (stepped (begun 0x0100 [0x37] [0x00, 0x08, 0x22] [])).screen
    (sc.width, sc.height) = (8, 0) := by decide

/-- Row y of the foreground, columns 0 to 7, T as none. -/
def fgRow (s : State) (y : Word) : List (Option Colour) :=
  [0, 1, 2, 3, 4, 5, 6, 7].map fun x => (s.screen.fgAt x y).shown

/-- Row y of the background, columns 0 to 7. -/
def bgRow (s : State) (y : Word) : List Colour := [0, 1, 2, 3, 4, 5, 6, 7].map fun x => s.screen.bgAt x y

/-- The setup of the V-SCR vectors: an 8 × 16 screen, plane bytes C0 at 0x0200 and A0 at 0x0208, A = 0x0200. -/
def scr : State :=
  { ((begun 0x0100 [] [] []).setRamByte 0x0200 0xC0).setRamByte 0x0208 0xA0 with
    screen := ⟨8, 16, [], [], false⟩
    dev := [(0x2C, 0x02)] }

/-- The state after a DEO of v to port p. -/
def deo (p v : Byte) (s : State) : State := devWriteByte p v s

/-- V-SCR-1: 2bpp on fg; A advances by 16. -/
theorem test_sprite_2bpp : let t := deo 0x2F 0xC1 scr
    (fgRow t 0, t.spriteAddr) = ([some 3, some 1, some 2, none, none, none, none, none], 0x0210) := by decide

/-- V-SCR-2 and V-SCR-3: flip_x mirrors columns, flip_y rows. -/
theorem test_sprite_flips : fgRow (deo 0x2F 0xD1 scr) 0 = [none, none, none, none, none, some 2, some 1, some 3] ∧
    fgRow (deo 0x2F 0xE1 scr) 0 = List.replicate 8 none ∧
    fgRow (deo 0x2F 0xE1 scr) 7 = [some 3, some 1, some 2, none, none, none, none, none] := by decide

/-- V-SCR-5: an opaque selector draws class 0 too. -/
theorem test_sprite_opaque : let t := deo 0x2F 0x8E scr
    (bgRow t 0, bgRow t 7, bgRow t 8) = ([1, 2, 3, 3, 3, 3, 3, 3], List.replicate 8 3, List.replicate 8 0) := by decide +kernel

/-- V-SCR-9: the address advances on every tile, or only with CTL bit 2. -/
theorem test_sprite_advance :
    let s := { scr.withDev [(0x26, 0x10)] with ram := [(0x200, 0x80), (0x208, 0x40)] }
    let b := { s with cfg := { s.cfg with addrAdvance := .bit2 } }
    (bgRow (deo 0x2F 0x01 s) 0, (deo 0x2F 0x01 s).spriteAddr) = ([1, 1, 0, 0, 0, 0, 0, 0], 0x0210) ∧
    (bgRow (deo 0x2F 0x01 b) 0, (deo 0x2F 0x01 b).spriteAddr) = ([1, 0, 0, 0, 0, 0, 0, 0], 0x0200) := by decide +kernel

/-- V-SCR-10 and V-SCR-11: the run may end at 0x10000, not past it. -/
theorem test_sprite_bounds :
    (deo 0x2F 0x01 (scr.withDev [(0x2C, 0xFF), (0x2D, 0xF8)])).spriteAddr = 0x0000 ∧
    (deo 0x2F 0x01 (scr.withDev [(0x2C, 0xFF), (0x2D, 0xF9)])).diagnostics.map (·.kind) = [.spriteReadOutOfBounds 0xFFF9 8] := by
  decide

/-- V-SCR-7 and V-SCR-8: dx moves the cursor's x and each next tile's y, dy the other way round. -/
theorem test_sprite_tiles :
    (let t := deo 0x2F 0x01 { scr.withDev [(0x26, 0x11)] with ram := [(0x200, 0x80), (0x208, 0x80)] }
     (t.screen.bgAt 0 0, t.screen.bgAt 0 8, t.cursorX, t.cursorY) = (1, 1, 8, 0)) ∧
    (let t := deo 0x2F 0x01
        { scr.withDev [(0x26, 0x12)] with ram := [(0x200, 0x80), (0x208, 0x80)], screen := ⟨16, 8, [], [], false⟩ }
     (t.screen.bgAt 0 0, t.screen.bgAt 8 0, t.cursorX, t.cursorY) = (1, 1, 0, 8)) := by decide +kernel

/-- V-SCR-14 to V-SCR-16: a pixel is drawn and the cursor advances; drawn again it is no change; colour 0 erases. -/
theorem test_pixel :
    let s := scr.withDev [(0x26, 0x03), (0x29, 2), (0x2B, 1)]
    let t := deo 0x2E 0x43 s
    let again := { t.withDev [(0x26, 0x00), (0x29, 2), (0x2B, 1)] with screen := { t.screen with dirty := false } }
    (t.screen.fgAt 2 1, t.cursorX, t.cursorY, t.screen.dirty) = (.three, 3, 2, true) ∧
    (deo 0x2E 0x43 again).screen.dirty = false ∧
    ((deo 0x2E 0x40 again).screen.fgAt 2 1, (deo 0x2E 0x40 again).screen.dirty) = (.transparent, true) := by decide

/-- V-SCR-18: out of bounds nothing is drawn, and the cursor wraps. -/
theorem test_pixel_out_of_bounds :
    let t := deo 0x2E 0x01 (scr.withDev [(0x26, 0x01), (0x28, 0xFF), (0x29, 0xFF)])
    (t.screen, t.cursorX) = (scr.screen, 0x0000) := by decide

/-- V-SCR-19: coordinates wrap mod 2^16. -/
theorem test_sprite_wraps :
    bgRow (deo 0x2F 0x01 { scr.withDev [(0x28, 0xFF), (0x29, 0xFC)] with ram := [(0x200, 0xFF)] }) 0 =
      [1, 1, 1, 1, 0, 0, 0, 0] := by decide +kernel

/-- V-SRC-10: a second present has no frame. -/
theorem test_present : let s := deo 0x2E 0x02 { scr with screen := ⟨2, 1, [], [], false⟩ }
    (s.presentFrame.map fun f => f.rows.map fun r => r.map (·.index)) = some [[2, 0]] ∧ s.presented.presentFrame = none := by
  decide

/-- The canonical form: writing the value an unlisted address reads as removes the entry. -/
theorem test_memory_canonical : ((State.reset.setRamByte 5 1).setRamByte 5 0).ram = [] ∧
    Memory.wf [(5, 1), (3, 2)] = false ∧ Memory.wf [(3, 0)] = false ∧ Memory.wf [(0x10000, 1)] = false := by decide

/-! ### Witnesses: a state and operands that meet the hypotheses of each clause of each statement, at its boundary -/

/-- The hypotheses of the first clause of `RunsAs`. -/
abbrev Fits (i : Instr) (pops n : Nat) (s : State) : Prop := pops ≤ (s.stack i.act).ptr.toNat ∧ pushBase i s pops + n ≤ 255

/-- The hypothesis of the second clause. -/
abbrev Lacks (i : Instr) (pops : Nat) (s : State) : Prop := (s.stack i.act).ptr.toNat < pops

/-- The hypotheses of the third clause. -/
abbrev Spills (i : Instr) (pops n : Nat) (s : State) : Prop := pops ≤ (s.stack i.act).ptr.toNat ∧ 255 < pushBase i s pops + n

theorem witness_DecodeOfEncodeIsTheInstruction : (Instr.lit2kr 0xFFFF).wellFormed = true := by decide

theorem witness_EncodeOfDecodeIsTheBytes : decode [0xE0, 0xFF, 0xFE, 0x00] = .ok (.lit2kr 0xFFFE, [0x00]) := by decide

/-- At the top of memory, where the bytes fetched wrap. -/
theorem witness_StepRunsTheDecodedInstruction :
    let s := begun 0xFFFF [0x20, 0x12, 0x34] [] []
    s.running = true ∧ (Instr.lit2 0x1234).wellFormed = true ∧
    decode [s.ramByte s.pc, s.ramByte (s.pc + 1), s.ramByte (s.pc + 2)] = .ok (.lit2 0x1234, []) := by decide

theorem witness_StepDoesNothingBetweenEvaluates : State.reset.running = false := by decide

/-- Still running with the halt port set, and clear with the budget at its boundary; and ended by BRK. -/
theorem witness_HaltPortEndsTheEvaluateAfterTheInstruction :
    (let s := begun 0x0100 [0x17] [0x01, 0x0F] []
     ∃ t, s.running = true ∧ exec (fetchInstr s) s.fetched = .next t ∧ t.running = true ∧ t.devByte 0x0F ≠ 0) ∧
    (let s := { begun 0x0100 [0x01] [0x01] [] with budget := 2 }
     ∃ t, s.running = true ∧ exec (fetchInstr s) s.fetched = .next t ∧ t.running = true ∧ t.devByte 0x0F = 0 ∧ 1 < t.budget) ∧
    (let s := begun 0x0100 [0x00] [] []
     ∃ t, s.running = true ∧ exec (fetchInstr s) s.fetched = .next t ∧ t.running = false) := by
  refine ⟨⟨_, rfl, rfl, ?_, ?_⟩, ⟨_, rfl, rfl, ?_, ?_, ?_⟩, ⟨_, rfl, rfl, ?_⟩⟩ <;> decide

theorem witness_BudgetIsCountedByPolicy :
    (let s := { begun 0x0100 [0x01] [0x01] [] with budget := 2 }
     ∃ t, s.running = true ∧ exec (fetchInstr s) s.fetched = .next t ∧ t.running = true ∧ t.devByte 0x0F = 0 ∧ 1 < t.budget) ∧
    (let s := { begun 0x0100 [0x01] [0x01] [] with budget := 1 }
     ∃ t, s.running = true ∧ exec (fetchInstr s) s.fetched = .next t ∧ t.running = true ∧ t.devByte 0x0F = 0 ∧
       t.budget = 1 ∧ t.cfg.budgetPolicy = .cont) ∧
    (let s := { begun 0x0100 [0x01] [0x01] [] with budget := 1, cfg := { Config.default with budgetPolicy := .abort } }
     ∃ t, s.running = true ∧ exec (fetchInstr s) s.fetched = .next t ∧ t.running = true ∧ t.devByte 0x0F = 0 ∧
       t.budget = 1 ∧ t.cfg.budgetPolicy = .abort) := by
  refine ⟨⟨_, rfl, rfl, ?_, ?_, ?_⟩, ⟨_, rfl, rfl, ?_, ?_, ?_, ?_⟩, ⟨_, rfl, rfl, ?_, ?_, ?_, ?_⟩⟩ <;> decide

/-- Vector 0, a halted machine, and the smallest vector that is entered. -/
theorem witness_EvaluateEntersTheLoopOrIsANoOp :
    (State.reset.running = false ∧ ((0 : Word) = 0 ∨ State.reset.devByte 0x0F ≠ 0)) ∧
    (let s := State.reset.withDev [(0x0F, 0x01)]; s.running = false ∧ ((1 : Word) = 0 ∨ s.devByte 0x0F ≠ 0)) ∧
    (State.reset.running = false ∧ (1 : Word) ≠ 0 ∧ State.reset.devByte 0x0F = 0) := by decide

theorem witness_EveryEndResetsTheTransientState :
    let s := begun 0x0100 [0x00] [] []
    ∃ t, s.running = true ∧ step s = .next t ∧ t.running = false := by
  refine ⟨_, rfl, rfl, ?_⟩; decide

/-- In a running evaluate, and between evaluates. -/
theorem witness_StepKeepsTheInvariant :
    (let s := begun 0x0100 [0x80, 0x05] [0x01] []; ∃ t, s.Inv ∧ step s = .next t) ∧ (∃ t, State.reset.Inv ∧ step State.reset = .next t) := by
  refine ⟨⟨_, ?_, rfl⟩, ⟨_, ?_, rfl⟩⟩ <;> decide

theorem witness_CreationMeetsTheInvariant : ({ Config.default with budget := 1 } : Config).wellFormed = true := by decide

theorem witness_HostTransactionsKeepTheInvariant :
    (∃ t, State.reset.Inv ∧ hostMove (.load [0x80, 0x02]) State.reset = .next t) ∧
    (∃ t, State.reset.Inv ∧ hostMove (.evaluate 0x0100) State.reset = .next t) ∧
    (∃ t, State.reset.Inv ∧ hostMove .present State.reset = .next t) := by
  refine ⟨⟨_, ?_, rfl⟩, ⟨_, ?_, rfl⟩, ⟨_, ?_, rfl⟩⟩ <;> decide

theorem witness_StepKeepsTheConfiguration : ∃ t, step (begun 0x0100 [0x80, 0x05] [] []) = .next t := ⟨_, rfl⟩

/-- Each of the seven opcodes at the program counter; and both clauses of `PushesAs`, for one byte and for two. -/
theorem witness_LitPushesItsImmediate :
    ([0x20, 0x40, 0x60, 0x80, 0xA0, 0xC0, 0xE0] : List Byte).all (fun b => (begun 0x0100 [b] [] []).ramByte 0x0100 == b) = true ∧
    ((deep 254 0).stack (Instr.lit 7).act).ptr.toNat + 1 ≤ 255 ∧ 255 < ((deep 255 0).stack (Instr.lit 7).act).ptr.toNat + 1 ∧
    ((deep 0 253).stack (Instr.lit2kr 7).act).ptr.toNat + 2 ≤ 255 ∧
    255 < ((deep 0 254).stack (Instr.lit2kr 7).act).ptr.toNat + 2 := by decide

theorem witness_IncAddsOneModWidth :
    Fits .inc 1 1 (deep 255 0) ∧ Lacks .inc 1 (deep 0 0) ∧ Fits .inc2kr 2 2 (deep 0 253) ∧
    Lacks .inc2kr 2 (deep 0 1) ∧ Spills .inc2kr 2 2 (deep 0 254) := by decide

theorem witness_NipRemovesTheSecondItem :
    Fits .nip 2 1 (deep 255 0) ∧ Lacks .nip 2 (deep 1 0) ∧ Fits .nip2kr 4 2 (deep 0 253) ∧
    Lacks .nip2kr 4 (deep 0 3) ∧ Spills .nip2kr 4 2 (deep 0 254) := by decide

theorem witness_SwpSwapsTheTopTwoItems :
    Fits .swp 2 2 (deep 255 0) ∧ Lacks .swp 2 (deep 1 0) ∧ Fits .swp2kr 4 4 (deep 0 251) ∧
    Lacks .swp2kr 4 (deep 0 3) ∧ Spills .swp2kr 4 4 (deep 0 252) := by decide

theorem witness_RotMovesTheThirdItemToTheTop :
    Fits .rot 3 3 (deep 255 0) ∧ Lacks .rot 3 (deep 2 0) ∧ Fits .rot2kr 6 6 (deep 0 249) ∧
    Lacks .rot2kr 6 (deep 0 5) ∧ Spills .rot2kr 6 6 (deep 0 250) := by decide

theorem witness_DupDuplicatesTheTopItem :
    Fits .dup 1 2 (deep 254 0) ∧ Lacks .dup 1 (deep 0 0) ∧ Fits .dup2kr 2 4 (deep 0 251) ∧
    Lacks .dup2kr 2 (deep 0 1) ∧ Spills .dup2kr 2 4 (deep 0 252) := by decide

theorem witness_OvrCopiesTheSecondItemOver :
    Fits .ovr 2 3 (deep 254 0) ∧ Lacks .ovr 2 (deep 1 0) ∧ Fits .ovr2kr 4 6 (deep 0 249) ∧
    Lacks .ovr2kr 4 (deep 0 3) ∧ Spills .ovr2kr 4 6 (deep 0 250) := by decide

theorem witness_AddWrapsModWidth :
    Fits .add 2 1 (deep 255 0) ∧ Lacks .add 2 (deep 1 0) ∧ Fits .add2kr 4 2 (deep 0 253) ∧
    Lacks .add2kr 4 (deep 0 3) ∧ Spills .add2kr 4 2 (deep 0 254) := by decide

theorem witness_SubSubtractsTheTopItem :
    Fits .sub 2 1 (deep 255 0) ∧ Lacks .sub 2 (deep 1 0) ∧ Fits .sub2kr 4 2 (deep 0 253) ∧
    Lacks .sub2kr 4 (deep 0 3) ∧ Spills .sub2kr 4 2 (deep 0 254) := by decide

theorem witness_MulKeepsTheLowBits :
    Fits .mul 2 1 (deep 255 0) ∧ Lacks .mul 2 (deep 1 0) ∧ Fits .mul2kr 4 2 (deep 0 253) ∧
    Lacks .mul2kr 4 (deep 0 3) ∧ Spills .mul2kr 4 2 (deep 0 254) := by decide

theorem witness_SftShiftsRightThenLeft :
    Fits .sft 2 1 (deep 255 0) ∧ Lacks .sft 2 (deep 1 0) ∧ Fits .sft2kr 3 2 (deep 0 253) ∧
    Lacks .sft2kr 3 (deep 0 2) ∧ Spills .sft2kr 3 2 (deep 0 254) := by decide

theorem witness_LdzLoadsFromTheZeroPage :
    Fits .ldz 1 1 (deep 255 0) ∧ Lacks .ldz 1 (deep 0 0) ∧ Fits .ldz2kr 1 2 (deep 0 253) ∧
    Lacks .ldz2kr 1 (deep 0 0) ∧ Spills .ldz2kr 1 2 (deep 0 254) := by decide

theorem witness_LdrLoadsRelativeToThePc :
    Fits .ldr 1 1 (deep 255 0) ∧ Lacks .ldr 1 (deep 0 0) ∧ Fits .ldr2kr 1 2 (deep 0 253) ∧
    Lacks .ldr2kr 1 (deep 0 0) ∧ Spills .ldr2kr 1 2 (deep 0 254) := by decide

theorem witness_LdaLoadsAbsolute :
    Fits .lda 2 1 (deep 255 0) ∧ Lacks .lda 2 (deep 1 0) ∧ Fits .lda2kr 2 2 (deep 0 253) ∧
    Lacks .lda2kr 2 (deep 0 1) ∧ Spills .lda2kr 2 2 (deep 0 254) := by decide

theorem witness_DeiReadsThePortPlainly :
    Fits .dei 1 1 (deep 255 0) ∧ Lacks .dei 1 (deep 0 0) ∧ Fits .dei2kr 1 2 (deep 0 253) ∧
    Lacks .dei2kr 1 (deep 0 0) ∧ Spills .dei2kr 1 2 (deep 0 254) := by decide

theorem witness_EquNeqPushOneByte :
    Fits .equ 2 1 (deep 255 0) ∧ Lacks .equ 2 (deep 1 0) ∧ Fits .equ2kr 4 1 (deep 0 254) ∧
    Lacks .equ2kr 4 (deep 0 3) ∧ Spills .equ2kr 4 1 (deep 0 255) ∧
    Fits .neq 2 1 (deep 255 0) ∧ Lacks .neq 2 (deep 1 0) ∧ Fits .neq2kr 4 1 (deep 0 254) ∧
    Lacks .neq2kr 4 (deep 0 3) ∧ Spills .neq2kr 4 1 (deep 0 255) := by decide

theorem witness_GthLthCompareUnsigned :
    Fits .gth 2 1 (deep 255 0) ∧ Lacks .gth 2 (deep 1 0) ∧ Fits .gth2kr 4 1 (deep 0 254) ∧
    Lacks .gth2kr 4 (deep 0 3) ∧ Spills .gth2kr 4 1 (deep 0 255) ∧
    Fits .lth 2 1 (deep 255 0) ∧ Lacks .lth 2 (deep 1 0) ∧ Fits .lth2kr 4 1 (deep 0 254) ∧
    Lacks .lth2kr 4 (deep 0 3) ∧ Spills .lth2kr 4 1 (deep 0 255) := by decide

theorem witness_AndOraEorAreBitwise :
    Fits .and 2 1 (deep 255 0) ∧ Lacks .and 2 (deep 1 0) ∧ Fits .and2kr 4 2 (deep 0 253) ∧
    Lacks .and2kr 4 (deep 0 3) ∧ Spills .and2kr 4 2 (deep 0 254) ∧
    Fits .ora 2 1 (deep 255 0) ∧ Lacks .ora 2 (deep 1 0) ∧ Fits .ora2kr 4 2 (deep 0 253) ∧
    Lacks .ora2kr 4 (deep 0 3) ∧ Spills .ora2kr 4 2 (deep 0 254) ∧
    Fits .eor 2 1 (deep 255 0) ∧ Lacks .eor 2 (deep 1 0) ∧ Fits .eor2kr 4 2 (deep 0 253) ∧
    Lacks .eor2kr 4 (deep 0 3) ∧ Spills .eor2kr 4 2 (deep 0 254) := by decide

theorem witness_PopDiscardsTheTopItem :
    1 ≤ ((deep 1 0).stack Instr.pop.act).ptr.toNat ∧ Lacks .pop 1 (deep 0 0) ∧
    2 ≤ ((deep 0 255).stack Instr.pop2kr.act).ptr.toNat ∧ Lacks .pop2kr 2 (deep 0 1) := by decide

theorem witness_JmpGoesToTheResolvedTarget :
    1 ≤ ((deep 1 0).stack Instr.jmp.act).ptr.toNat ∧ Lacks .jmp 1 (deep 0 0) ∧
    2 ≤ ((deep 0 255).stack Instr.jmp2kr.act).ptr.toNat ∧ Lacks .jmp2kr 2 (deep 0 1) := by decide

theorem witness_JcnJumpsOnANonzeroByte :
    2 ≤ ((deep 2 0).stack Instr.jcn.act).ptr.toNat ∧ Lacks .jcn 2 (deep 1 0) ∧
    3 ≤ ((deep 0 255).stack Instr.jcn2kr.act).ptr.toNat ∧ Lacks .jcn2kr 3 (deep 0 2) := by decide

theorem witness_DeoWritesThePort :
    2 ≤ ((deep 2 0).stack Instr.deo.act).ptr.toNat ∧ Lacks .deo 2 (deep 1 0) ∧
    3 ≤ ((deep 0 255).stack Instr.deo2kr.act).ptr.toNat ∧ Lacks .deo2kr 3 (deep 0 2) := by decide

theorem witness_StzStoresToTheZeroPage :
    Memory.wf (begun 0xFFFF [0x01] [] []).ram = true ∧ Memory.wf (deep 0 0).ram = true ∧
    2 ≤ ((deep 2 0).stack Instr.stz.act).ptr.toNat ∧ Lacks .stz 2 (deep 1 0) ∧
    3 ≤ ((deep 0 255).stack Instr.stz2kr.act).ptr.toNat ∧ Lacks .stz2kr 3 (deep 0 2) := by decide

theorem witness_StrStoresRelativeToThePc :
    Memory.wf (begun 0xFFFF [0x01] [] []).ram = true ∧ Memory.wf (deep 0 0).ram = true ∧
    2 ≤ ((deep 2 0).stack Instr.str.act).ptr.toNat ∧ Lacks .str 2 (deep 1 0) ∧
    3 ≤ ((deep 0 255).stack Instr.str2kr.act).ptr.toNat ∧ Lacks .str2kr 3 (deep 0 2) := by decide

theorem witness_StaStoresAbsolute :
    Memory.wf (begun 0xFFFF [0x01] [] []).ram = true ∧ Memory.wf (deep 0 0).ram = true ∧
    3 ≤ ((deep 3 0).stack Instr.sta.act).ptr.toNat ∧ Lacks .sta 3 (deep 2 0) ∧
    4 ≤ ((deep 0 255).stack Instr.sta2kr.act).ptr.toNat ∧ Lacks .sta2kr 4 (deep 0 3) := by decide

theorem witness_JsrStashesThePcAndJumps :
    (255 < ((deep 0 254).stack Instr.jsr.oth).ptr.toNat + 2) ∧
    (((deep 0 253).stack Instr.jsr.oth).ptr.toNat + 2 ≤ 255 ∧ ((deep 0 253).stack Instr.jsr.act).ptr.toNat < Instr.jsr.size) ∧
    (((deep 1 253).stack Instr.jsr.oth).ptr.toNat + 2 ≤ 255 ∧ Instr.jsr.size ≤ ((deep 1 253).stack Instr.jsr.act).ptr.toNat) ∧
    (((deep 253 2).stack Instr.jsr2kr.oth).ptr.toNat + 2 ≤ 255 ∧
      Instr.jsr2kr.size ≤ ((deep 253 2).stack Instr.jsr2kr.act).ptr.toNat) := by decide

theorem witness_SthMovesAnItemToTheOtherStack :
    ((deep 0 0).stack Instr.sth.act).ptr.toNat < Instr.sth.size ∧
    (Instr.sth.size ≤ ((deep 1 254).stack Instr.sth.act).ptr.toNat ∧ ((deep 1 254).stack Instr.sth.oth).ptr.toNat + Instr.sth.size ≤ 255) ∧
    (Instr.sth.size ≤ ((deep 1 255).stack Instr.sth.act).ptr.toNat ∧ 255 < ((deep 1 255).stack Instr.sth.oth).ptr.toNat + Instr.sth.size) := by decide

theorem witness_DivDividesUnsignedOrTraps :
    ((deep 1 0).stack Instr.div.act).ptr.toNat < 2 * Instr.div.size ∧
    (2 * Instr.div.size ≤ ((deep 2 0).stack Instr.div.act).ptr.toNat ∧ ((deep 2 0).stack Instr.div.act).item Instr.div.short 2 = 0) ∧
    (let s := begun 0x0100 [] [0x07, 0x01] []; ((s.stack Instr.div.act).item Instr.div.short 2 ≠ 0 ∧ Fits .div 2 1 s)) ∧
    (let s := begun 0x0100 [] [0x01] []; ((s.stack Instr.div.act).item Instr.div.short 1 ≠ 0 ∧ Lacks .div 2 s)) ∧
    (let s := { deep 255 0 with wst := ⟨[(254, 1)], 255⟩ }; ((s.stack Instr.divk.act).item Instr.divk.short 255 ≠ 0 ∧ Spills .divk 2 1 s)) := by decide

theorem witness_DeviceWriteStoresThenHandles :
    Cells.wf 0 (scr.withDev [(0x00, 0x01), (0xFF, 0x02)]).dev = true ∧ (0x0F : Byte).toNat / 16 = 0 ∧ (0x10 : Byte).toNat / 16 = 1 ∧ (0x1F : Byte).toNat / 16 = 1 ∧ (0x20 : Byte).toNat / 16 = 2 ∧
    (0x2F : Byte).toNat / 16 = 2 ∧ 3 ≤ (0x30 : Byte).toNat / 16 ∧ 3 ≤ (0xFF : Byte).toNat / 16 := by decide

theorem witness_PaletteWriteSetsTwoChannels :
    ([0x08, 0x0D] : List Byte).all (fun p => decide (0x08 ≤ p.toNat ∧ p.toNat ≤ 0x0D)) = true := by decide

theorem witness_ConsoleWriteAppendsToTheSink :
    ([0x10, 0x18, 0x1F] : List Byte).all (fun p => decide (0x10 ≤ p.toNat ∧ p.toNat ≤ 0x1F)) = true := by decide

theorem witness_UnmappedWriteIsStoredAndReported :
    ((deep 0 0).decoded 0x17).current = some ⟨0x17, 0x00FF⟩ ∧
    ([0x30, 0xFF] : List Byte).all (fun p => decide (0x30 ≤ p.toNat)) = true := by decide

theorem witness_InertPortsOnlyStore :
    ([0x00, 0x07, 0x0E, 0x0F, 0x20, 0x21, 0x22, 0x24, 0x26, 0x2D] : List Byte).all (fun p => decide
      (p.toNat ≤ 0x07 ∨ p = 0x0E ∨ p = 0x0F ∨ p = 0x20 ∨ p = 0x21 ∨ p = 0x22 ∨ p = 0x24 ∨
        (0x26 ≤ p.toNat ∧ p.toNat ≤ 0x2D))) = true := by decide

theorem witness_ResizeLoadsOneDimensionAndClears :
    Cells.wf 0 scr.dev = true ∧ (0x23 : Byte) ∈ ([0x23, 0x25] : List Byte) ∧ (0x25 : Byte) ∈ ([0x23, 0x25] : List Byte) := by decide

theorem witness_WritePixelChangesOneCellInBounds :
    Cells.wf .transparent scr.screen.fg = true ∧ Cells.wf 0 scr.screen.bg = true := by decide

theorem witness_PixelCommandDrawsAndAdvances :
    Cells.wf 0 (scr.withDev [(0x26, 0x03), (0x28, 0xFF)]).dev = true := by decide

theorem witness_SpriteOutOfBoundsDrawsNothing :
    let s := scr.withDev [(0x2C, 0xFF), (0x2D, 0xF9)]
    (s.decoded 0x17).current = some ⟨0x17, 0x00FF⟩ ∧ Cells.wf 0 (s.decoded 0x17).dev = true ∧
      0x10000 < s.spriteAddr.toNat + (s.autoCtl.toNat / 16 + 1) * (if (0x01 : Byte).getLsbD 7 then 16 else 8) := by decide

theorem witness_SpriteCommandDrawsAndWritesBack :
    let s := scr.withDev [(0x2C, 0xFF), (0x2D, 0xF8)]
    Cells.wf 0 s.dev = true ∧
      s.spriteAddr.toNat + (s.autoCtl.toNat / 16 + 1) * (if (0x01 : Byte).getLsbD 7 then 16 else 8) ≤ 0x10000 := by decide

/-- The hypotheses of the clauses: drawn on fg, drawn on bg at the last column and row, and not drawn (class 0, and out of the
tile). -/
theorem witness_BlitDrawsTheTilePixelByPixel :
    let s := { scr with ram := [(0x200, 0x80), (0x207, 0x01)] }
    let mf : SpriteMode := ⟨.fg, false, false, false, 1, false⟩
    let mb : SpriteMode := ⟨.bg, false, false, false, 1, false⟩
    Cells.wf .transparent s.screen.fg = true ∧ Cells.wf 0 s.screen.bg = true ∧
    ((0 : Word).toNat < s.screen.width.toNat ∧ (0 : Word).toNat < s.screen.height.toNat ∧ tileClass s false 0x200 0 0 ≠ 0 ∧ mf.layer = .fg) ∧
    ((7 : Word).toNat < s.screen.width.toNat ∧ (7 : Word).toNat < s.screen.height.toNat ∧ tileClass s false 0x200 7 7 ≠ 0 ∧ mb.layer = .bg) ∧
    (tileClass s false 0x200 1 0 = 0 ∧ mf.isOpaque = false) ∧ ¬ ((0 : Word) - 1).toNat < 8 := by decide

theorem witness_CompositeOverlaysForegroundOnBackground :
    let s := { scr with screen := ⟨8, 16, [(7, .one), (15 * 65536, .two), (15 * 65536 + 7, .three)], [], false⟩ }
    ((7 : Word).toNat < s.screen.width.toNat ∧ (15 : Word).toNat < s.screen.height.toNat) ∧ s.screen.fgAt 0 0 = .transparent ∧
    s.screen.fgAt 7 0 = .one ∧ s.screen.fgAt 0 15 = .two ∧ s.screen.fgAt 7 15 = .three := by decide

theorem witness_PresentReturnsAFrameOnlyWhenDirty :
    State.reset.running = false ∧ State.reset.screen.dirty = false ∧
    (let s := { State.reset with screen := ⟨2, 1, [], [(1, 2)], true⟩ }; s.running = false ∧ s.screen.dirty = true) := by decide

/-- An image of the greatest size, one byte more, and a load that is no longer open. -/
theorem witness_LoadCopiesTheImageToItsOffset :
    State.reset.running = false ∧ Memory.wf State.reset.ram = true ∧ State.reset.loadOpen = true ∧
    (List.replicate 0xFF00 (0x80 : Byte)).length ≤ 0xFF00 ∧ 0xFF00 < (List.replicate 0xFF01 (0x80 : Byte)).length ∧
    ({ State.reset with loadOpen := false } : State).loadOpen = false := by
  simp only [List.length_replicate]; decide

theorem witness_HostActsOnlyBetweenEvaluates :
    (deep 0 0).running = true ∧ State.reset.running = false := by decide

end Sys2Proof.Machine
end

section
/-! PROOFS. 00_scope R16, 10_state R43: the parameters are no state. What a step can do is said once, as an inversion; a
property that every elementary change keeps, the end of an `evaluate` and the count of the budget included, is then kept by a
step. The carried configuration is such a property. -/
namespace Sys2Proof.Machine

/-! ### What a step can do -/

/-- A step leaves the state alone between evaluates; while one runs it is the instruction at the program counter, then what
follows an instruction (40_execution_cycle R112). -/
theorem step_cases (s t : State) (h : step s = .next t) :
    (s.running = false ∧ t = s) ∨
    (s.running = true ∧ ∃ u, exec (fetchInstr s) s.fetched = .next u ∧ t = afterInstr u) := by
  unfold step at h
  cases hrun : s.running with
  | false =>
    rw [hrun, if_neg Bool.false_ne_true, Host.Outcome.next.injEq] at h
    exact .inl ⟨rfl, h.symm⟩
  | true =>
    rw [hrun, if_pos rfl] at h
    refine .inr ⟨rfl, ?_⟩
    generalize exec (fetchInstr s) s.fetched = o at h ⊢
    cases o with
    | next u => exact ⟨u, rfl, (Host.Outcome.next.inj h).symm⟩
    | fault r => cases h
    | refused r => cases h

section
variable {P : State → Prop} (hend : ∀ o s, P s → P (s.endEvaluate o)) (hbudget : ∀ n s, P s → P { s with budget := n })
include hend

theorem Left.keeps (t : State) (ht : Left P t) : P t := by
  obtain ⟨hP, -, -⟩ | ⟨u, o, hu, rfl, -⟩ := ht
  · exact hP
  · exact hend o u hu

include hbudget

theorem budgetHook_keeps (s : State) (hs : P s) : P (budgetHook s) := by
  unfold budgetHook
  split
  · exact hbudget _ s hs
  · exact hend _ s hs

theorem countInstr_keeps (s : State) (hs : P s) : P (countInstr s) := by
  unfold countInstr
  split
  · exact budgetHook_keeps hend hbudget _ (hbudget _ s hs)
  · exact hbudget _ s hs

theorem afterInstr_keeps (s : State) (hs : P s) : P (afterInstr s) := by
  unfold afterInstr
  split
  · split
    · exact hend _ s hs
    · exact countInstr_keeps hend hbudget s hs
  · exact hs

/-- The elementary changes of an instruction, the end of an `evaluate` and the count of the budget are all that a step makes. -/
theorem Stable.step_keeps (h : Stable P) (s t : State) (hs : P s) (hstep : step s = .next t) : P t := by
  obtain ⟨-, rfl⟩ | ⟨-, u, hexec, rfl⟩ := step_cases s t hstep
  · exact hs
  · obtain ⟨u', hexec', hleft⟩ := exec_left h (fetchInstr s) s.fetched (h.pc _ s hs)
    obtain rfl : u' = u := Host.Outcome.next.inj (hexec'.symm.trans hexec)
    exact afterInstr_keeps hend hbudget u' (Left.keeps hend u' hleft)

end

/-! ### The configuration under a device write -/

@[simp] theorem pixelCommand_cfg (s : State) : (pixelCommand s).cfg = s.cfg := by
  unfold pixelCommand
  simp only [apply_ite State.cfg, setDevShort_cfg, ite_self]

@[simp] theorem spriteCommand_cfg (s : State) : (spriteCommand s).cfg = s.cfg := by
  unfold spriteCommand
  dsimp only
  split
  · exact diag_cfg s _
  · simp only [setDevShort_cfg]

@[simp] theorem screenHandler_cfg (p : Byte) (s : State) : (screenHandler p s).cfg = s.cfg := by
  unfold screenHandler
  split_ifs
  · rfl
  · rfl
  · exact pixelCommand_cfg s
  · exact spriteCommand_cfg s
  · rfl

@[simp] theorem systemHandler_cfg (p v : Byte) (s : State) : (systemHandler p v s).cfg = s.cfg := by
  unfold systemHandler
  split <;> rfl

@[simp] theorem consoleHandler_cfg (p v : Byte) (s : State) : (consoleHandler p v s).cfg = s.cfg := by
  unfold consoleHandler
  split <;> rfl

@[simp] theorem deviceHandler_cfg (p v : Byte) (s : State) : (deviceHandler p v s).cfg = s.cfg := by
  unfold deviceHandler
  split
  · exact systemHandler_cfg p v s
  · exact consoleHandler_cfg p v s
  · exact screenHandler_cfg p s
  · exact diag_cfg s _

@[simp] theorem devWriteByte_cfg (p v : Byte) (s : State) : (devWriteByte p v s).cfg = s.cfg := by
  rw [devWriteByte, deviceHandler_cfg, setDevByte_cfg]

/-! ### The configuration under a step -/

/-- No elementary change of an instruction touches the configuration (10_state R43). -/
theorem cfg_stable (c : Config) : Stable fun s => s.cfg = c where
  modes b s hs := (decoded_cfg s b).trans hs
  kptr _ _ hs := hs
  current _ _ hs := hs
  push id _ s _ hs := (setStack_cfg s id _).trans hs
  drop id s _ hs := (setStack_cfg s id _).trans hs
  pc a s hs := (setPc_cfg s a).trans hs
  ram a v s hs := (setRamByte_cfg s a v).trans hs
  dev p v s hs := (devWriteByte_cfg p v s).trans hs

/-- Settles O16: having a given configuration is kept by every elementary change, so a step keeps it. -/
theorem stepKeepsTheConfiguration : Obligations.StepKeepsTheConfiguration := by
  intro s t hstep
  exact (cfg_stable s.cfg).step_keeps (fun o u hu => (endEvaluate_cfg u o).trans hu) (fun _ _ hu => hu) s t rfl hstep

end Sys2Proof.Machine
end

section
/-! PROOFS. 10_state R20 to R42: the canonical forms and bounds of the machine's data, the values creation leaves in it, and the
machine's invariant. The invariant is split into what every elementary change of an instruction keeps (the data are well-formed,
and the loop is entered with a budget left) and what the end of a step restores (no keep pointer, not halted, or the transient
state at its defaults). -/
namespace Sys2Proof.Machine

/-! ### Creation (10_state R42, R39) -/

@[simp] theorem colour_black (c : Colour) : Palette.black.colour c = Rgb.black := by
  unfold Palette.colour
  split_ifs <;> rfl

@[simp] theorem channel_black (ch : Channel) : Rgb.black.channel ch = 0 := by
  cases ch <;> rfl

/-- Settles O17: a region with nothing listed reads its default at every index, and the palette is black in every channel. -/
theorem creationLeavesTheResetValues : Obligations.CreationLeavesTheResetValues := by
  intro cfg s
  have hpalette (c : Colour) (ch : Channel) : (s.palette.colour c).channel ch = 0 :=
    (congrArg (Rgb.channel · ch) (colour_black c)).trans (channel_black ch)
  exact ⟨rfl, fun _ => rfl, fun _ => rfl, rfl, fun _ => rfl, rfl, fun _ => rfl, rfl, rfl, rfl, rfl, rfl, rfl, rfl, rfl,
    fun _ _ => rfl, fun _ _ => rfl, rfl, hpalette, rfl, rfl, rfl, rfl, rfl, rfl⟩

/-! ### Stacks (10_state R21, R23) -/

/-- A push below depth 255 writes a data byte of the window. -/
theorem Stack.Wf.pushed {st : Stack} (h : st.Wf) (v : Byte) (hroom : st.ptr ≠ 255) : (st.pushed v).Wf := by
  obtain ⟨hcanon, hbelow⟩ := h
  have hptr : st.ptr.toNat < stackCapacity := by
    unfold stackCapacity
    bv_omega
  exact ⟨wf_write 0 _ _ v hcanon, below_write 0 _ _ _ v hbelow hptr⟩

/-! ### The palette (10_state R39, 45_device_bus R218, R219) -/

theorem isDoubled_expandNibble : ∀ n : Nibble, isDoubled (expandNibble n) := by decide

theorem Rgb.Wf.setChannel {c : Rgb} (h : c.Wf) (ch : Channel) {v : Byte} (hv : isDoubled v) : (c.setChannel ch v).Wf := by
  obtain ⟨hr, hg, hb⟩ := h
  cases ch with
  | red => exact ⟨hv, hg, hb⟩
  | green => exact ⟨hr, hv, hb⟩
  | blue => exact ⟨hr, hg, hv⟩

theorem Palette.Wf.update {pal : Palette} (h : pal.Wf) (p v : Byte) : (pal.update p v).Wf := by
  obtain ⟨h0, h1, h2, h3⟩ := h
  have hset (c : Rgb) (hc : c.Wf) (n : Nibble) : (c.setChannel (paletteChannel p) (expandNibble n)).Wf :=
    hc.setChannel _ (isDoubled_expandNibble n)
  unfold Palette.update
  dsimp only
  split
  · exact ⟨h0, h1, hset _ h2 _, hset _ h3 _⟩
  · exact ⟨hset _ h0 _, hset _ h1 _, h2, h3⟩

/-! ### The screen (46_screen_blitter R236 to R247) -/

/-- Only a pixel inside the live size is written (46_screen_blitter R237). -/
theorem Screen.Wf.writePixel {sc : Screen} (h : sc.Wf) (x y : Word) (c : Colour) (layer : Layer) :
    (sc.writePixel x y c layer).Wf := by
  obtain ⟨hfg, hbg, hfgIn, hbgIn⟩ := h
  unfold Screen.writePixel
  split
  next hin =>
    cases layer with
    | fg =>
      dsimp only
      split
      · exact ⟨hfg, hbg, hfgIn, hbgIn⟩
      · exact ⟨wf_write _ _ _ _ hfg, hbg, covers_write sc _ _ _ x y hfgIn hin, hbgIn⟩
    | bg =>
      dsimp only
      split
      · exact ⟨hfg, hbg, hfgIn, hbgIn⟩
      · exact ⟨hfg, wf_write _ _ _ _ hbg, hfgIn, covers_write sc _ _ _ x y hbgIn hin⟩
  next => exact ⟨hfg, hbg, hfgIn, hbgIn⟩

/-- A resize leaves no cell listed (46_screen_blitter R236). -/
theorem Screen.resized_wf (sc : Screen) (width height : Word) : (sc.resized width height).Wf := ⟨rfl, rfl, rfl, rfl⟩

theorem Screen.Wf.blitPixel {sc : Screen} (h : sc.Wf) (t : BlendTable) (m : SpriteMode) (x y : Word) (v : Nat)
    (p0 p1 : Byte) (col : Nat) : (blitPixel t m x y v p0 p1 sc col).Wf := by
  unfold Machine.blitPixel
  split
  · exact h.writePixel _ _ _ _
  · exact h

theorem Screen.Wf.blitRow {sc : Screen} (h : sc.Wf) (s : State) (m : SpriteMode) (x y : Word) (a v : Nat) :
    (blitRow s m x y a sc v).Wf :=
  List.foldlRecOn _ _ h fun _ hsc col _ => hsc.blitPixel _ m x y v _ _ col

theorem Screen.Wf.blit {sc : Screen} (h : sc.Wf) (s : State) (m : SpriteMode) (x y : Word) (a : Nat) :
    (blit s m x y a sc).Wf :=
  List.foldlRecOn _ _ h fun _ hsc v _ => hsc.blitRow s m x y a v

theorem drawTiles_wf (s : State) (m : SpriteMode) (ctl : Byte) (count : Nat) (h : s.screen.Wf) :
    (drawTiles s m ctl count).Wf :=
  List.foldlRecOn _ _ h fun _ hsc _ _ => hsc.blit s m _ _ _

/-! ### Well-formed data -/

/-- The part of the invariant that speaks of the machine's data, whether an evaluate runs or not. -/
structure State.Sound (s : State) : Prop where
  cfg : s.cfg.wellFormed = true
  ram : Memory.wf s.ram = true
  page : Cells.wf 0 s.dev = true
  ports : Cells.below portCount s.dev = true
  bothStacks : ∀ id, (s.stack id).Wf
  screen : s.screen.Wf
  palette : s.palette.Wf

/-- The invariant is well-formed data, and what holds of the transient state with and without an evaluate running. -/
theorem inv_iff_sound (s : State) :
    s.Inv ↔ s.Sound ∧ (s.running = true → s.MidRun) ∧ (s.running = false → s.AtDefaults) := by
  constructor
  · intro ⟨hcfg, hram, hpage, hports, hwst, hrst, hscreen, hpalette, hrun, hidle⟩
    exact ⟨⟨hcfg, hram, hpage, hports, fun id => by cases id <;> assumption, hscreen, hpalette⟩, hrun, hidle⟩
  · intro ⟨hs, hrun, hidle⟩
    exact ⟨hs.cfg, hs.ram, hs.page, hs.ports, hs.bothStacks .w, hs.bothStacks .r, hs.screen, hs.palette, hrun, hidle⟩

variable {s : State}

theorem State.Sound.setStack (h : s.Sound) (id : StackId) {st : Stack} (hst : st.Wf) : (s.setStack id st).Sound where
  cfg := by rw [setStack_cfg]; exact h.cfg
  ram := by rw [setStack_ram]; exact h.ram
  page := by rw [setStack_dev]; exact h.page
  ports := by rw [setStack_dev]; exact h.ports
  bothStacks jd := by
    by_cases hid : id = jd
    · rw [← hid, stack_setStack_same]
      exact hst
    · rw [stack_setStack_ne s id jd st hid]
      exact h.bothStacks jd
  screen := by rw [setStack_screen]; exact h.screen
  palette := by rw [setStack_palette]; exact h.palette

theorem State.Sound.setRamByte (h : s.Sound) (a : Word) (v : Byte) : (s.setRamByte a v).Sound :=
  ⟨h.cfg, setRamByte_wf s a v h.ram, h.page, h.ports, h.bothStacks, h.screen, h.palette⟩

theorem State.Sound.setDevByte (h : s.Sound) (p v : Byte) : (s.setDevByte p v).Sound :=
  ⟨h.cfg, h.ram, setDevByte_wf s p v h.page, setDevByte_below s p v h.ports, h.bothStacks, h.screen, h.palette⟩

theorem State.Sound.setDevShort (h : s.Sound) (p : Byte) (v : Word) : (s.setDevShort p v).Sound :=
  (h.setDevByte p _).setDevByte (p + 1) _

theorem State.Sound.setScreen (h : s.Sound) {sc : Screen} (hsc : sc.Wf) : State.Sound { s with screen := sc } :=
  ⟨h.cfg, h.ram, h.page, h.ports, h.bothStacks, hsc, h.palette⟩

theorem State.Sound.setPalette (h : s.Sound) {pal : Palette} (hpal : pal.Wf) : State.Sound { s with palette := pal } :=
  ⟨h.cfg, h.ram, h.page, h.ports, h.bothStacks, h.screen, hpal⟩

theorem State.Sound.diag (h : s.Sound) (k : DiagKind) : (s.diag k).Sound :=
  ⟨h.cfg, h.ram, h.page, h.ports, h.bothStacks, h.screen, h.palette⟩

theorem State.Sound.setBudget (h : s.Sound) (n : Nat) : State.Sound { s with budget := n } :=
  ⟨h.cfg, h.ram, h.page, h.ports, h.bothStacks, h.screen, h.palette⟩

theorem State.Sound.endEvaluate (h : s.Sound) (o : EvalOutcome) : (s.endEvaluate o).Sound :=
  ⟨h.cfg, h.ram, h.page, h.ports, h.bothStacks, h.screen, h.palette⟩

/-! ### Well-formed data under a device write (45_device_bus R212) -/

theorem State.Sound.systemHandler (h : s.Sound) (p v : Byte) : (systemHandler p v s).Sound := by
  unfold Machine.systemHandler
  split
  · exact h.setPalette (h.palette.update p v)
  · exact h

theorem State.Sound.consoleHandler (h : s.Sound) (p v : Byte) : (consoleHandler p v s).Sound := by
  rw [consoleHandler_eq]
  exact ⟨h.cfg, h.ram, h.page, h.ports, h.bothStacks, h.screen, h.palette⟩

/-- A cursor that advances only under a bit of the auto-advance control byte (46_screen_blitter R245). -/
theorem State.Sound.setDevShort_if (h : s.Sound) (advance : Bool) (p : Byte) (v : Word) :
    State.Sound (if advance then s.setDevShort p v else s) := by
  split
  · exact h.setDevShort p v
  · exact h

theorem State.Sound.pixelCommand (h : s.Sound) : (pixelCommand s).Sound := by
  unfold Machine.pixelCommand
  exact ((h.setScreen (h.screen.writePixel _ _ _ _)).setDevShort_if _ _ _).setDevShort_if _ _ _

theorem State.Sound.spriteCommand (h : s.Sound) : (spriteCommand s).Sound := by
  unfold Machine.spriteCommand
  dsimp only
  split
  · exact h.diag _
  · exact (((h.setScreen (drawTiles_wf s _ _ _ h.screen)).setDevShort _ _).setDevShort _ _).setDevShort _ _

theorem State.Sound.screenHandler (h : s.Sound) (p : Byte) : (screenHandler p s).Sound := by
  unfold Machine.screenHandler
  split_ifs
  · exact h.setScreen (s.screen.resized_wf _ _)
  · exact h.setScreen (s.screen.resized_wf _ _)
  · exact h.pixelCommand
  · exact h.spriteCommand
  · exact h

theorem State.Sound.deviceHandler (h : s.Sound) (p v : Byte) : (deviceHandler p v s).Sound := by
  unfold Machine.deviceHandler
  split
  · exact h.systemHandler p v
  · exact h.consoleHandler p v
  · exact h.screenHandler p
  · exact h.diag _

theorem State.Sound.devWriteByte (h : s.Sound) (p v : Byte) : (devWriteByte p v s).Sound :=
  (h.setDevByte p v).deviceHandler p v

/-! ### What an instruction keeps -/

/-- Two properties that the elementary changes keep are kept together. -/
theorem Stable.and {P Q : State → Prop} (hP : Stable P) (hQ : Stable Q) : Stable fun s => P s ∧ Q s where
  modes b s h := ⟨hP.modes b s h.1, hQ.modes b s h.2⟩
  kptr k s h := ⟨hP.kptr k s h.1, hQ.kptr k s h.2⟩
  current c s h := ⟨hP.current c s h.1, hQ.current c s h.2⟩
  push id v s hroom h := ⟨hP.push id v s hroom h.1, hQ.push id v s hroom h.2⟩
  drop id s hitem h := ⟨hP.drop id s hitem h.1, hQ.drop id s hitem h.2⟩
  pc a s h := ⟨hP.pc a s h.1, hQ.pc a s h.2⟩
  ram a v s h := ⟨hP.ram a v s h.1, hQ.ram a v s h.2⟩
  dev p v s h := ⟨hP.dev p v s h.1, hQ.dev p v s h.2⟩

theorem sound_stable : Stable State.Sound where
  modes _ _ h := ⟨h.cfg, h.ram, h.page, h.ports, h.bothStacks, h.screen, h.palette⟩
  kptr _ _ h := ⟨h.cfg, h.ram, h.page, h.ports, h.bothStacks, h.screen, h.palette⟩
  current _ _ h := ⟨h.cfg, h.ram, h.page, h.ports, h.bothStacks, h.screen, h.palette⟩
  push id v _ hroom h := h.setStack id ((h.bothStacks id).pushed v hroom)
  drop id _ _ h := h.setStack id (h.bothStacks id)
  pc _ _ h := ⟨h.cfg, h.ram, h.page, h.ports, h.bothStacks, h.screen, h.palette⟩
  ram a v _ h := h.setRamByte a v
  dev p v _ h := h.devWriteByte p v

/-- What holds of the loop from the fetch to the end of the instruction (40_execution_cycle R112, R118; 70_reset R310). -/
structure State.InLoop (s : State) : Prop where
  running : s.running = true
  budgetLeft : 0 < s.budget
  budgetBound : s.budget ≤ s.cfg.budget
  loadClosed : s.loadOpen = false

theorem State.InLoop.setStack (h : s.InLoop) (id : StackId) (st : Stack) : (s.setStack id st).InLoop := by
  cases id <;> exact ⟨h.running, h.budgetLeft, h.budgetBound, h.loadClosed⟩

theorem State.InLoop.devWriteByte (h : s.InLoop) (p v : Byte) : (devWriteByte p v s).InLoop := by
  obtain ⟨d, sc, pal, out, g, hwrite⟩ := devWriteByte_eq p v s
  rw [hwrite]
  exact ⟨h.running, h.budgetLeft, h.budgetBound, h.loadClosed⟩

theorem inLoop_stable : Stable State.InLoop where
  modes _ _ h := ⟨h.running, h.budgetLeft, h.budgetBound, h.loadClosed⟩
  kptr _ _ h := ⟨h.running, h.budgetLeft, h.budgetBound, h.loadClosed⟩
  current _ _ h := ⟨h.running, h.budgetLeft, h.budgetBound, h.loadClosed⟩
  push id _ _ _ h := h.setStack id _
  drop id _ _ h := h.setStack id _
  pc _ _ h := ⟨h.running, h.budgetLeft, h.budgetBound, h.loadClosed⟩
  ram _ _ _ h := ⟨h.running, h.budgetLeft, h.budgetBound, h.loadClosed⟩
  dev p v _ h := h.devWriteByte p v

/-! ### The invariant at the end of a step -/

/-- The end of an evaluate puts the transient state at its defaults (40_execution_cycle R120). -/
theorem State.Sound.endEvaluate_inv (h : s.Sound) (o : EvalOutcome) : (s.endEvaluate o).Inv :=
  (inv_iff_sound _).2 ⟨h.endEvaluate o, nofun, fun _ => ⟨rfl, rfl, rfl, rfl, rfl, rfl, rfl⟩⟩

/-- A completed instruction that did not halt meets the invariant once the budget counter has a value from 1 to `BUDGET`. -/
theorem State.Sound.setBudget_inv (h : s.Sound) (hloop : s.InLoop) (hkptr : s.kptr = none) (hcurrent : s.current = none)
    (hhalt : s.halted = false) (n : Nat) (hpos : 0 < n) (hle : n ≤ s.cfg.budget) :
    State.Inv { s with budget := n } := by
  refine (inv_iff_sound _).2 ⟨h.setBudget n, fun _ => ⟨hhalt, hkptr, hcurrent, hpos, hle, hloop.loadClosed⟩, fun hidle => ?_⟩
  exact absurd (hloop.running.symm.trans hidle) Bool.noConfusion

/-- The budget is counted down, refilled from a `BUDGET` of at least 1, or ends the evaluate (40_execution_cycle R118). -/
theorem countInstr_inv (h : s.Sound) (hloop : s.InLoop) (hkptr : s.kptr = none) (hcurrent : s.current = none)
    (hhalt : s.halted = false) : (countInstr s).Inv := by
  have hset := h.setBudget_inv hloop hkptr hcurrent hhalt
  have hcfg : 0 < s.cfg.budget := of_decide_eq_true h.cfg
  unfold countInstr
  split
  · unfold budgetHook
    split
    · exact hset s.cfg.budget hcfg le_rfl
    · exact (h.setBudget _).endEvaluate_inv .timeout
  next hleft => exact hset (s.budget - 1) (Nat.pos_of_ne_zero hleft) ((Nat.sub_le _ 1).trans hloop.budgetBound)

/-- What follows an instruction restores the invariant, in whichever way the instruction left its state. -/
theorem afterInstr_inv (u : State) (hu : Left (fun s => s.Sound ∧ s.InLoop) u) : (afterInstr u).Inv := by
  unfold afterInstr
  obtain ⟨⟨hsound, hloop⟩, hkptr, hcurrent⟩ | ⟨v, o, ⟨hsound, -⟩, rfl, -⟩ := hu
  · rw [if_pos hloop.running]
    split
    · exact hsound.endEvaluate_inv .haltedPort
    next hhalt => exact countInstr_inv hsound hloop hkptr hcurrent (Bool.eq_false_of_not_eq_true hhalt)
  · exact hsound.endEvaluate_inv o

/-- Settles O13: between evaluates nothing changes; while one runs, the fetched instruction keeps the data well-formed and the
budget and the load closed, and what follows it restores the rest. -/
theorem stepKeepsTheInvariant : Obligations.StepKeepsTheInvariant := by
  intro s t hinv hstep
  obtain ⟨-, rfl⟩ | ⟨hrun, u, hexec, rfl⟩ := step_cases s t hstep
  · exact hinv
  · obtain ⟨hsound, hmid, -⟩ := (inv_iff_sound s).1 hinv
    obtain ⟨-, -, -, hpos, hle, hload⟩ := hmid hrun
    have hstable := sound_stable.and inLoop_stable
    obtain ⟨u', hexec', hleft⟩ :=
      exec_left hstable (fetchInstr s) s.fetched (hstable.pc _ s ⟨hsound, hrun, hpos, hle, hload⟩)
    obtain rfl : u' = u := Host.Outcome.next.inj (hexec'.symm.trans hexec)
    exact afterInstr_inv u' hleft

end Sys2Proof.Machine
end

section
/-! PROOFS. 30_encoding R90 to R101: decode and encode are inverse to each other. What the decoder answers is said once
(`decode_eq_ok_iff`); in one direction every instruction is read back from its own bytes, in the other an instruction chosen by an
opcode byte's fields has these fields in its own opcode and as many of the bytes after it as R100 says. Since every byte decodes
(R98) and no instruction faults or refuses, every step answers a next state. -/

namespace Sys2Proof.Laws.RoundTrip

/-- The round trip of every instruction, from that of each row of opcode_table.json. -/
theorem every (i : Instr) : Statement i :=
  Instr.casesOn i
    brk lit2 litr lit2r lit lit2k litkr lit2kr
    inc inc2 incr inc2r inck inc2k inckr inc2kr pop pop2 popr pop2r popk pop2k popkr pop2kr
    nip nip2 nipr nip2r nipk nip2k nipkr nip2kr swp swp2 swpr swp2r swpk swp2k swpkr swp2kr
    rot rot2 rotr rot2r rotk rot2k rotkr rot2kr dup dup2 dupr dup2r dupk dup2k dupkr dup2kr
    ovr ovr2 ovrr ovr2r ovrk ovr2k ovrkr ovr2kr equ equ2 equr equ2r equk equ2k equkr equ2kr
    neq neq2 neqr neq2r neqk neq2k neqkr neq2kr gth gth2 gthr gth2r gthk gth2k gthkr gth2kr
    lth lth2 lthr lth2r lthk lth2k lthkr lth2kr jmp jmp2 jmpr jmp2r jmpk jmp2k jmpkr jmp2kr
    jcn jcn2 jcnr jcn2r jcnk jcn2k jcnkr jcn2kr jsr jsr2 jsrr jsr2r jsrk jsr2k jsrkr jsr2kr
    sth sth2 sthr sth2r sthk sth2k sthkr sth2kr ldz ldz2 ldzr ldz2r ldzk ldz2k ldzkr ldz2kr
    stz stz2 stzr stz2r stzk stz2k stzkr stz2kr ldr ldr2 ldrr ldr2r ldrk ldr2k ldrkr ldr2kr
    str str2 strr str2r strk str2k strkr str2kr lda lda2 ldar lda2r ldak lda2k ldakr lda2kr
    sta sta2 star sta2r stak sta2k stakr sta2kr dei dei2 deir dei2r deik dei2k deikr dei2kr
    deo deo2 deor deo2r deok deo2k deokr deo2kr add add2 addr add2r addk add2k addkr add2kr
    sub sub2 subr sub2r subk sub2k subkr sub2kr mul mul2 mulr mul2r mulk mul2k mulkr mul2kr
    div div2 divr div2r divk div2k divkr div2kr and and2 andr and2r andk and2k andkr and2kr
    ora ora2 orar ora2r orak ora2k orakr ora2kr eor eor2 eorr eor2r eork eor2k eorkr eor2kr
    sft sft2 sftr sft2r sftk sft2k sftkr sft2kr

end Sys2Proof.Laws.RoundTrip

namespace Sys2Proof

open Sys2Proof.Machine

/-! ### The length of an instruction (30_encoding R100) -/

/-- An instruction is one, two or three bytes long. -/
theorem lengthOf_cases (b : Byte) : lengthOf b = 1 ∨ lengthOf b = 2 ∨ lengthOf b = 3 := by
  unfold lengthOf
  split
  · split
    · exact .inr (.inr rfl)
    · exact .inr (.inl rfl)
  · exact .inl rfl

/-- The base operation of an opcode byte is its value modulo 32 (30_encoding R91). -/
theorem baseBits_eq_zero_iff (b : Byte) : b.extractLsb' 0 5 = 0 ↔ b.toNat % 32 = 0 := by
  rw [← BitVec.toNat_inj, BitVec.extractLsb'_toNat, Nat.shiftRight_zero]
  rfl

theorem lengthOf_ne_zero (b : Byte) : lengthOf b ≠ 0 := by
  have := lengthOf_cases b
  omega

/-- There are at most two immediate bytes. -/
theorem imm_cases {b : Byte} {imm : List Byte} (h : lengthOf b = (b :: imm).length) :
    imm = [] ∨ (∃ x, imm = [x]) ∨ ∃ x y, imm = [x, y] := by
  match imm with
  | [] => exact .inl rfl
  | [x] => exact .inr (.inl ⟨x, rfl⟩)
  | [x, y] => exact .inr (.inr ⟨x, y, rfl⟩)
  | x :: y :: z :: more =>
    simp only [List.length_cons] at h
    have := lengthOf_cases b
    omega

theorem lengthOf_eq (b : Byte) :
    lengthOf b = if b ≠ 0 ∧ b.toNat % 32 = 0 then (if b.getLsbD 5 then 3 else 2) else 1 := by
  unfold lengthOf shortBit
  exact if_congr (and_congr_right fun _ => baseBits_eq_zero_iff b) rfl rfl

/-! ### What the decoder answers -/

/-- The decoder splits off an opcode byte with the immediate bytes that belong to it, and no others (30_encoding R90, R100). -/
theorem decode_eq_ok_iff (bytes rest : List Byte) (i : Instr) :
    decode bytes = .ok (i, rest) ↔
      ∃ b imm, bytes = b :: imm ++ rest ∧ lengthOf b = (b :: imm).length ∧
        decodeBytes b (imm.getD 0 0) (imm.getD 1 0) = i := by
  constructor
  · intro h
    unfold decode at h
    split at h
    · cases h
    next b after =>
      split_ifs at h with h1 h2
      · cases h
        exact ⟨b, [], rfl, h1, rfl⟩
      · split at h
        next b1 _ =>
          cases h
          exact ⟨b, [b1], rfl, h2, rfl⟩
        · cases h
      · have h3 : lengthOf b = 3 := ((lengthOf_cases b).resolve_left h1).resolve_left h2
        split at h
        next b1 b2 _ =>
          cases h
          exact ⟨b, [b1, b2], rfl, h3, rfl⟩
        · cases h
  · rintro ⟨b, imm, rfl, hlength, rfl⟩
    obtain rfl | ⟨x, rfl⟩ | ⟨x, y, rfl⟩ := imm_cases hlength <;> simp [decode, hlength]

/-! ### Encode, then decode -/

/-- Settles O1: an instruction's opcode and immediate bytes are read as the instruction and have the length that the opcode
gives, so the decoder stops exactly before the bytes that follow. -/
theorem decodeOfEncodeIsTheInstruction : Obligations.DecodeOfEncodeIsTheInstruction := by
  intro i rest _
  obtain ⟨hread, hlength⟩ := Laws.RoundTrip.every i
  exact (decode_eq_ok_iff _ _ _).2 ⟨i.opcode, i.immBytes, rfl, hlength, hread⟩

/-- A word whose bytes begin with the encoding of an instruction decodes to it. -/
theorem decodeTableWord_of_encode {nbits w : Nat} (i : Instr) (rest : List Byte) (h : tableBytes nbits w = encode i ++ rest) :
    decodeTableWord nbits w = some i := by
  rw [decodeTableWord, h, decodeOfEncodeIsTheInstruction i rest rfl]

/-- Settles O4: each word is the encoding of its instruction, followed by zero bytes. -/
theorem sampleWordsDecode : Obligations.SampleWordsDecode :=
  ⟨decodeTableWord_of_encode .brk [0, 0] rfl, decodeTableWord_of_encode (.lit 0x02) [0] rfl,
    decodeTableWord_of_encode (.lit2 0x1234) [] rfl, decodeTableWord_of_encode .add2kr [0, 0] rfl,
    decodeTableWord_of_encode .dup2 [0, 0] rfl, decodeTableWord_of_encode .jmp2r [0, 0] rfl,
    decodeTableWord_of_encode .inc [0, 0] rfl, decodeTableWord_of_encode .deo2 [0, 0] rfl,
    decodeTableWord_of_encode .sta [0, 0] rfl, decodeTableWord_of_encode .sftk [0, 0] rfl⟩

/-! ### Decode, then encode -/

/-- The number of a base operation: its place in the order of 30_encoding R92. -/
def BaseOp.number (op : BaseOp) : BitVec 5 := BitVec.ofNat 5 op.ctorIdx

theorem BaseOp.number_numbered : ∀ n : BitVec 5, (BaseOp.numbered n.toNat).number = n := by decide

/-- The opcode byte with mode bits k, r, s and base operation `op` (30_encoding R91). -/
def opcodeOf (op : BaseOp) (k r s : Bool) : Byte :=
  BitVec.ofBool k ++ BitVec.ofBool r ++ BitVec.ofBool s ++ op.number

/-- A byte is put together again, bit by bit, from the four fields that the decoder reads from it. -/
theorem opcodeOf_fields (b : Byte) :
    opcodeOf (.numbered (b.extractLsb' 0 5).toNat) (keepBit b) (returnBit b) (shortBit b) = b := by
  apply BitVec.eq_of_getLsbD_eq
  intro i hi
  rw [opcodeOf, BaseOp.number_numbered]
  simp only [keepBit, returnBit, shortBit, BitVec.getLsbD_append, BitVec.getLsbD_extractLsb', BitVec.getLsbD_ofBool]
  interval_cases i <;> simp

/-- Row by row of the opcode map: the encoder writes the fields that select the row's instruction, and of the short that follows
the opcode as many bytes as the row's length leaves (30_encoding R92, R95, R100). -/
theorem encode_instrOf (op : BaseOp) (k r s : Bool) (v : Word) :
    encode (instrOf op k r s (highByte v) v) =
      [opcodeOf op k r s, highByte v, lowByte v].take (lengthOf (opcodeOf op k r s)) := by
  cases op <;> cases k <;> cases r <;> cases s <;> rfl

theorem encode_decodeBytes (b b1 b2 : Byte) : encode (decodeBytes b b1 b2) = [b, b1, b2].take (lengthOf b) := by
  have hrow := encode_instrOf (.numbered (b.extractLsb' 0 5).toNat) (keepBit b) (returnBit b) (shortBit b) (shortOf b1 b2)
  rwa [opcodeOf_fields, highByte_shortOf, lowByte_shortOf] at hrow

/-- The bytes that the decoder splits off, no bit of them dropped. -/
theorem encode_decodeBytes_of_length (b : Byte) (imm : List Byte) (h : lengthOf b = (b :: imm).length) :
    encode (decodeBytes b (imm.getD 0 0) (imm.getD 1 0)) = b :: imm := by
  rw [encode_decodeBytes, h]
  obtain rfl | ⟨x, rfl⟩ | ⟨x, y, rfl⟩ := imm_cases h <;> rfl

/-- Settles O2: the decoder split off an opcode byte with its immediate bytes, which are the encoding of what it answers. -/
theorem encodeOfDecodeIsTheBytes : Obligations.EncodeOfDecodeIsTheBytes := by
  intro bytes rest i h
  obtain ⟨b, imm, rfl, hlength, rfl⟩ := (decode_eq_ok_iff _ _ _).1 h
  rw [encode_decodeBytes_of_length b imm hlength]

theorem opcode_decodeBytes (b b1 b2 : Byte) : (decodeBytes b b1 b2).opcode = b := by
  obtain ⟨n, hn⟩ := Nat.exists_eq_succ_of_ne_zero (lengthOf_ne_zero b)
  have hencode := encode_decodeBytes b b1 b2
  rw [hn, List.take_succ_cons] at hencode
  exact (List.cons.inj hencode).1

/-- Settles O3: the modes of an instruction are those of its opcode byte, which is the byte decoded. -/
theorem decodeIsTotalByModeBits : Obligations.DecodeIsTotalByModeBits := by
  intro b b1 b2
  have hop := opcode_decodeBytes b b1 b2
  refine ⟨hop, congrArg keepBit hop, ?_, congrArg shortBit hop, ?_, ?_⟩
  · rw [Instr.act, hop, returnBit]
  · rw [← (Laws.RoundTrip.every _).2, hop, lengthOf_eq]
  · constructor
    · intro hbrk
      rw [← hop, hbrk, Instr.opcode]
    · rintro rfl
      rfl

end Sys2Proof

namespace Sys2Proof.Machine

/-! ### Every step has a next state (30_encoding R98, 60_exceptions R270) -/

theorem stable_true : Stable fun _ => True :=
  ⟨fun _ _ _ => trivial, fun _ _ _ => trivial, fun _ _ _ => trivial, fun _ _ _ _ _ => trivial, fun _ _ _ _ => trivial,
    fun _ _ _ => trivial, fun _ _ _ _ => trivial, fun _ _ _ _ => trivial⟩

/-- No instruction faults or refuses, in any state: a fatal error is an outcome of the evaluate that it ends. -/
theorem exec_next (i : Instr) (s : State) : ∃ t, exec i s = .next t := by
  obtain ⟨t, hexec, -⟩ := exec_left stable_true i s trivial
  exact ⟨t, hexec⟩

/-- Settles O7: a step leaves the state, or it is the fetched instruction's next state and what follows the instruction. -/
theorem stepAlwaysAnswersNext : Obligations.StepAlwaysAnswersNext := by
  intro s
  unfold step
  split
  · obtain ⟨t, hexec⟩ := exec_next (fetchInstr s) s.fetched
    exact ⟨afterInstr t, by rw [hexec, afterOutcome]⟩
  · exact ⟨s, rfl⟩

end Sys2Proof.Machine
end

section
/-! PROOFS. 40_execution_cycle R110 to R120: entering an `evaluate`, a step of its loop, and its end. What follows an instruction
has one equation per branch (already ended, halted, budget left, budget used up under either policy), and a step is the fetched
instruction with one of these after it. -/
namespace Sys2Proof.Machine

/-! ### The fetch (R112, 30_encoding R95) -/

/-- The bytes that an instruction does not use do not matter to the decoder: three bytes decode to what they select. -/
theorem decode_three (b b1 b2 : Byte) :
    decode [b, b1, b2] = .ok (decodeBytes b b1 b2, [b, b1, b2].drop (lengthOf b)) := by
  have hsplit : encode (decodeBytes b b1 b2) ++ [b, b1, b2].drop (lengthOf b) = [b, b1, b2] := by
    rw [encode_decodeBytes, List.take_append_drop]
  have hdecode := decodeOfEncodeIsTheInstruction (decodeBytes b b1 b2) ([b, b1, b2].drop (lengthOf b)) rfl
  rwa [hsplit] at hdecode

theorem fetchInstr_of_decode {s : State} {i : Instr} {rest : List Byte}
    (h : decode [s.ramByte s.pc, s.ramByte (s.pc + 1), s.ramByte (s.pc + 2)] = .ok (i, rest)) : fetchInstr s = i := by
  rw [decode_three] at h
  exact (Prod.mk.inj (Except.ok.inj h)).1

/-! ### The halt test and the budget (R117, R118) -/

theorem halted_iff (s : State) : s.halted = true ↔ s.devByte 0x0F ≠ 0 := bne_iff_ne

section
variable {t : State}

theorem afterInstr_of_ended (h : t.running = false) : afterInstr t = t := by
  rw [afterInstr, h, if_neg Bool.false_ne_true]

theorem afterInstr_of_halted (hrun : t.running = true) (h : t.devByte 0x0F ≠ 0) :
    afterInstr t = t.endEvaluate .haltedPort := by
  rw [afterInstr, if_pos hrun, if_pos ((halted_iff t).2 h)]

theorem afterInstr_of_not_halted (hrun : t.running = true) (h : t.devByte 0x0F = 0) : afterInstr t = countInstr t := by
  rw [afterInstr, if_pos hrun, if_neg fun hhalt => (halted_iff t).1 hhalt h]

theorem countInstr_of_budget_left (h : 1 < t.budget) : countInstr t = { t with budget := t.budget - 1 } := by
  rw [countInstr, if_neg (by omega)]

/-- The counter that reached 0 is overwritten, by the refill or by the end of the evaluate. -/
theorem countInstr_of_budget_one (h : t.budget = 1) : countInstr t = budgetHook { t with budget := 0 } := by
  rw [countInstr, h, if_pos rfl]

theorem budgetHook_of_cont (h : t.cfg.budgetPolicy = .cont) : budgetHook t = { t with budget := t.cfg.budget } := by
  rw [budgetHook, h]

theorem budgetHook_of_abort (h : t.cfg.budgetPolicy = .abort) : budgetHook t = t.endEvaluate .timeout := by
  rw [budgetHook, h]

/-! ### A step of a running evaluate (R112) -/

variable {s : State}

theorem step_of_running (hrun : s.running = true) : step s = afterOutcome (exec (fetchInstr s) s.fetched) := if_pos hrun

theorem step_of_exec (hrun : s.running = true) (hexec : exec (fetchInstr s) s.fetched = .next t) :
    step s = .next (afterInstr t) := by
  rw [step_of_running hrun, hexec, afterOutcome]

end

/-- Settles O5: the instruction fetched is the one that the bytes at the program counter decode to. -/
theorem stepRunsTheDecodedInstruction : Obligations.StepRunsTheDecodedInstruction := by
  intro s i rest hrun _ hdecode
  rw [step_of_running hrun, fetchInstr_of_decode hdecode, State.fetched, State.setPc]

/-- Settles O9: a step that is not halted counts the instruction, and at the budget's last one the policy decides. -/
theorem budgetIsCountedByPolicy : Obligations.BudgetIsCountedByPolicy := by
  intro s t hrun hexec hgoing hport
  have hstep : step s = .next (countInstr t) := by rw [step_of_exec hrun hexec, afterInstr_of_not_halted hgoing hport]
  rw [hstep]
  refine ⟨fun hleft => ?_, fun hlast hcont => ?_, fun hlast habort => ?_⟩
  · rw [countInstr_of_budget_left hleft]
  · exact congrArg _ ((countInstr_of_budget_one hlast).trans (budgetHook_of_cont hcont))
  · exact congrArg _ ((countInstr_of_budget_one hlast).trans (budgetHook_of_abort habort))

/-- Settles O8: the halt test comes before the count of the budget, and neither is made once the evaluate has ended. -/
theorem haltPortEndsTheEvaluateAfterTheInstruction : Obligations.HaltPortEndsTheEvaluateAfterTheInstruction := by
  intro s t hrun hexec
  refine ⟨fun hgoing hport => ?_, fun hgoing hport hleft => ?_, fun hended => ?_⟩
  · rw [step_of_exec hrun hexec, afterInstr_of_halted hgoing hport]
  · exact (budgetIsCountedByPolicy s t hrun hexec hgoing hport).1 hleft
  · rw [step_of_exec hrun hexec, afterInstr_of_ended hended]

/-! ### The end of an evaluate (R119, R120) -/

/-- No elementary change of an instruction ends the evaluate. -/
theorem running_stable : Stable fun s => s.running = true where
  modes b s hs := (decoded_running s b).trans hs
  kptr _ _ hs := hs
  current _ _ hs := hs
  push id _ s _ hs := (setStack_running s id _).trans hs
  drop id s _ hs := (setStack_running s id _).trans hs
  pc a s hs := (setPc_running s a).trans hs
  ram a v s hs := (setRamByte_running s a v).trans hs
  dev p v s hs := by
    obtain ⟨d, sc, pal, out, g, hwrite⟩ := devWriteByte_eq p v s
    rw [hwrite]
    exact hs

/-- The state is the end of an evaluate, with an outcome of the loop: every one but `NoOp` (R119). -/
def State.Ended (t : State) : Prop := ∃ u o, t = State.endEvaluate u o ∧ o ≠ .noOp

theorem endEvaluate_ended (u : State) {o : EvalOutcome} (h : o ≠ .noOp) : (u.endEvaluate o).Ended := ⟨u, o, rfl, h⟩

/-- The count of an instruction sets the budget, or it ends the evaluate. -/
theorem countInstr_cases (s : State) : (∃ n, countInstr s = { s with budget := n }) ∨ (countInstr s).Ended := by
  unfold countInstr
  split
  · unfold budgetHook
    split
    · exact .inl ⟨s.cfg.budget, rfl⟩
    · exact .inr (endEvaluate_ended _ nofun)
  · exact .inl ⟨s.budget - 1, rfl⟩

/-- An evaluate that an instruction did not leave running, or that what follows the instruction stopped, has ended. -/
theorem afterInstr_ended {u : State} (hu : Left (fun s => s.running = true) u) (h : (afterInstr u).running = false) :
    (afterInstr u).Ended := by
  obtain ⟨hrun, -, -⟩ | ⟨v, o, -, rfl, ho⟩ := hu
  · by_cases hport : u.devByte 0x0F = 0
    · rw [afterInstr_of_not_halted hrun hport] at h ⊢
      obtain ⟨n, hcount⟩ | hended := countInstr_cases u
      · rw [hcount] at h
        exact absurd (hrun.symm.trans h) Bool.noConfusion
      · exact hended
    · rw [afterInstr_of_halted hrun hport]
      exact endEvaluate_ended u nofun
  · rw [afterInstr_of_ended (endEvaluate_running v o)]
    refine endEvaluate_ended v ?_
    obtain rfl | ⟨record, rfl⟩ := ho <;> nofun

theorem step_ended {s t : State} (hrun : s.running = true) (hstep : step s = .next t) (h : t.running = false) : t.Ended := by
  obtain ⟨hidle, -⟩ | ⟨-, u, hexec, rfl⟩ := step_cases s t hstep
  · exact absurd (hrun.symm.trans hidle) Bool.noConfusion
  · obtain ⟨u', hexec', hleft⟩ := exec_left running_stable (fetchInstr s) s.fetched (running_stable.pc _ s hrun)
    obtain rfl : u' = u := Host.Outcome.next.inj (hexec'.symm.trans hexec)
    exact afterInstr_ended hleft h

/-- Settles O12: a step stops an evaluate only by its end, which puts the transient state at its defaults. -/
theorem everyEndResetsTheTransientState : Obligations.EveryEndResetsTheTransientState := by
  intro s t hrun hstep hstopped
  obtain ⟨u, o, rfl, ho⟩ := step_ended hrun hstep hstopped
  refine ⟨rfl, rfl, rfl, rfl, rfl, rfl, ?_⟩
  rw [endEvaluate_outcome]
  cases o with
  | noOp => exact absurd rfl ho
  | haltedBrk => exact .inl rfl
  | haltedPort => exact .inr (.inl rfl)
  | timeout => exact .inr (.inr (.inl rfl))
  | error record => exact .inr (.inr (.inr ⟨record, rfl⟩))

theorem exec_brk (s : State) : exec .brk s = .next (s.endEvaluate .haltedBrk) := rfl

/-- Settles O10: BRK is the end of the evaluate with `Halted(Brk)`, with nothing popped, pushed or counted before it. -/
theorem brkEndsTheEvaluate : Obligations.BrkEndsTheEvaluate := ⟨rfl, exec_brk⟩

/-! ### Entering an evaluate (R110, R111) -/

theorem hostMove_evaluate {s : State} (v : Word) (h : s.running = false) :
    hostMove (.evaluate v) s = .next (s.evaluate v) := by
  rw [hostMove, h, if_neg Bool.false_ne_true]

theorem evaluate_of_noOp {s : State} {v : Word} (h : v = 0 ∨ s.devByte 0x0F ≠ 0) :
    s.evaluate v = { s with outcome := some .noOp } :=
  if_pos (h.imp_right (halted_iff s).2)

theorem evaluate_of_enters {s : State} {v : Word} (hv : v ≠ 0) (h : s.devByte 0x0F = 0) :
    s.evaluate v = s.enterEvaluate v :=
  if_neg fun hnoOp => hnoOp.elim hv fun hhalt => (halted_iff s).1 hhalt h

/-- Settles O11: between evaluates the transaction is made, and the vector and the halt port decide whether it enters the loop. -/
theorem evaluateEntersTheLoopOrIsANoOp : Obligations.EvaluateEntersTheLoopOrIsANoOp := by
  intro s v hidle
  rw [hostMove_evaluate v hidle]
  refine ⟨fun hnoOp => ?_, fun hv hport => ?_⟩
  · rw [evaluate_of_noOp hnoOp]
  · rw [evaluate_of_enters hv hport]
    rfl

end Sys2Proof.Machine
end

section
/-! PROOFS. 41_stack_ops R130 to R137: the stack operations. The eight forms of an operation run one body, each under its own opcode
byte (30_encoding R96). LIT only pushes, at a program counter moved past its immediate; every other body is pops, then pushes, on the
active stack, whose closed form `Laws/Bodies` gives and whose outcome in every state `runForm_popPush` gives. -/
namespace Sys2Proof.Machine

/-! ### From a body to what the instruction does -/

section
variable {s : State} {i : Instr} {body : State → Res Unit}

/-- A body is read at the decoded state, where the cursor is the depth of the instruction's active stack and the modes are those of
its opcode. -/
theorem runsAs_of_body {pops : Nat} {out : List Byte} (hexec : exec i s = runForm i.opcode body s)
    (hbody : ∀ u : State, u.cursor = (s.stack i.act).ptr.toNat → u.stack u.active = s.stack i.act → u.short = i.short →
      u.size = i.size → body u = popPush pops out u) : RunsAs i s pops out id := by
  obtain ⟨hcursor, hactive, hshort, hsize, -, -⟩ := cursor_decoded s i
  refine runForm_popPush s i pops out body hexec (hbody _ hcursor ?_ hshort hsize)
  rw [hactive, decoded_stack]

theorem pushBase_le (i : Instr) (s : State) (pops : Nat) : pushBase i s pops ≤ 255 := by
  have := (s.stack i.act).ptr.isLt
  unfold pushBase
  split <;> omega

/-- With nothing to push, the results always fit. -/
theorem popsAs_of_runsAs {pops : Nat} (h : RunsAs i s pops [] id) : PopsAs i s pops id := by
  obtain ⟨hcompletes, hunderflows, -⟩ := h
  exact ⟨fun hpops => hcompletes hpops (pushBase_le i s pops), hunderflows⟩

end

/-! ### LIT (R130) -/

theorem fetchInstr_of_ramByte {s : State} {b : Byte} (h : s.ramByte s.pc = b) :
    fetchInstr s = decodeBytes b (s.ramByte (s.pc + 1)) (s.ramByte (s.pc + 2)) := by
  rw [fetchInstr, h]

/-- The trap of an overflow, at a state whose full stack was just written (60_exceptions R272, R273). -/
theorem raise_overflow_setStack (t : State) (id : StackId) {st : Stack} (h : st.ptr = 255) :
    raise ⟨.stackOverflow, id⟩ (t.setStack id st) =
      (t.setStack id st).endEvaluate (.error ⟨0x02, .stackOverflow, id, t.opcode, t.opAddr, 255⟩) := by
  rw [raise, State.errorRecord, stack_setStack_same, setStack_opcode, setStack_opAddr, h]
  rfl

/-- A run of pushes that does not fit fills the stack. -/
theorem stored_take_ptr (st : Stack) {base : Nat} {out : List Byte} (hbase : base ≤ 255) (h : 255 < base + out.length) :
    (st.stored base (out.take (255 - base))).ptr = 255 := by
  have hlength : base + (out.take (255 - base)).length = 255 := by
    rw [List.length_take]
    omega
  rw [Stack.stored, hlength]
  rfl

/-- A push at a program counter moved on by `n`: it goes to the instruction's active stack, from its depth on. -/
theorem opLit_decoded (s : State) (i : Instr) (n imm : Word) :
    opLit n imm (s.decoded i.opcode) =
      pushAll i.act (itemBytes i.short imm) ((s.decoded i.opcode).setPc (s.pc + n)) := by
  rw [opLit_eq]
  rfl

/-- LIT in every state. An overflow's record has the address of the opcode, whatever the program counter has moved to. -/
theorem pushesAs_of_opLit {s : State} {i : Instr} {n imm : Word}
    (hexec : exec i s = runForm i.opcode (opLit n imm) s) :
    PushesAs i s (itemBytes i.short imm) (fun t => { t with pc := s.pc + n }) := by
  have hlt := (s.stack i.act).ptr.isLt
  rw [runForm, opLit_decoded, pushAll_eq, setPc_stack, decoded_stack] at hexec
  refine ⟨fun hfits => ?_, fun hspills => ?_⟩
  · rw [hexec, if_pos hfits, finish, State.ran, pushBase, Nat.sub_zero, ite_self]
    cases i.act <;> rfl
  · rw [hexec, if_neg (by omega), finish, raise_overflow_setStack _ _ (stored_take_ptr _ (by omega) hspills), State.overflowed]
    cases i.act <;> rfl

/-- Settles O18: the fetch reads the immediate after the opcode, and every form pushes the immediate it carries. -/
theorem litPushesItsImmediate : Obligations.LitPushesItsImmediate := by
  refine ⟨fun s => ⟨fetchInstr_of_ramByte, fetchInstr_of_ramByte, fetchInstr_of_ramByte, fetchInstr_of_ramByte,
    fetchInstr_of_ramByte, fetchInstr_of_ramByte, fetchInstr_of_ramByte⟩, fun v i hi s => ?_, fun v i hi s => ?_⟩
  · have hform : exec i s = runForm i.opcode (opLit 1 (zext16 v)) s ∧ i.short = false := by
      fin_cases hi <;> exact ⟨rfl, by rw [Instr.short, Instr.opcode]; rfl⟩
    obtain ⟨hexec, hshort⟩ := hform
    have hlit := pushesAs_of_opLit hexec
    rwa [hshort, itemBytes, if_neg Bool.false_ne_true, lowByte_zext16] at hlit
  · have hform : exec i s = runForm i.opcode (opLit 2 v) s ∧ i.short = true := by
      fin_cases hi <;> exact ⟨rfl, by rw [Instr.short, Instr.opcode]; rfl⟩
    obtain ⟨hexec, hshort⟩ := hform
    have hlit := pushesAs_of_opLit hexec
    rwa [hshort, itemBytes, if_pos rfl] at hlit

/-! ### INC (R131) -/

theorem lowByte_ofNat (n : Nat) : lowByte (BitVec.ofNat 16 n) = BitVec.ofNat 8 n := by
  apply BitVec.eq_of_toNat_eq
  simp only [lowByte, BitVec.extractLsb'_toNat, BitVec.toNat_ofNat, Nat.shiftRight_zero]
  omega

/-- What is pushed of a 16-bit result is the result mod 2^w (44_arith_logic, its opening). -/
theorem itemBytes_ofNat_mod (i : Instr) (n : Nat) :
    itemBytes i.short (BitVec.ofNat 16 (n % i.modulus)) = itemBytes i.short (BitVec.ofNat 16 n) := by
  unfold itemBytes Instr.modulus
  cases i.short with
  | false =>
    simp only [Bool.false_eq_true, if_false, lowByte_ofNat, List.cons.injEq, and_true]
    exact BitVec.eq_of_toNat_eq (by simp only [BitVec.toNat_ofNat]; omega)
  | true =>
    have hword : BitVec.ofNat 16 (n % 65536) = BitVec.ofNat 16 n :=
      BitVec.eq_of_toNat_eq (by simp only [BitVec.toNat_ofNat]; omega)
    rw [if_pos rfl, if_pos rfl, if_pos rfl, hword]

/-- Settles O19: the body adds 1 mod 2^16, and the push keeps of the sum what the width has. -/
theorem incAddsOneModWidth : Obligations.IncAddsOneModWidth := by
  refine ⟨rfl, fun i hi s => ?_⟩
  have hexec : exec i s = runForm i.opcode opInc s := by fin_cases hi <;> rfl
  refine runsAs_of_body hexec fun u hcursor hstack hshort hsize => ?_
  have hsum (a : Word) : BitVec.ofNat 16 (a.toNat + 1) = a + 1 := by
    rw [BitVec.ofNat_add, BitVec.ofNat_toNat, BitVec.setWidth_eq]
    rfl
  rw [itemBytes_ofNat_mod, hsum, opInc_eq, hcursor, hstack, hshort, hsize]

/-! ### The operations that move items (R132 to R137) -/

/-- Settles O20: a pop with nothing pushed. -/
theorem popDiscardsTheTopItem : Obligations.PopDiscardsTheTopItem := by
  refine ⟨rfl, fun i hi s => ?_⟩
  have hexec : exec i s = runForm i.opcode opPop s := by fin_cases hi <;> rfl
  refine popsAs_of_runsAs (runsAs_of_body hexec fun u _ _ _ hsize => ?_)
  rw [opPop_eq, hsize]

/-- Settles O21: two pops, and the first item popped is pushed. -/
theorem nipRemovesTheSecondItem : Obligations.NipRemovesTheSecondItem := by
  refine ⟨rfl, fun i hi s => ?_⟩
  have hexec : exec i s = runForm i.opcode opNip s := by fin_cases hi <;> rfl
  refine runsAs_of_body hexec fun u hcursor hstack hshort hsize => ?_
  rw [opNip_eq, hcursor, hstack, hshort, hsize]

/-- Settles O22: two pops, and the items are pushed in the order they were popped. -/
theorem swpSwapsTheTopTwoItems : Obligations.SwpSwapsTheTopTwoItems := by
  refine ⟨rfl, fun i hi s => ?_⟩
  have hexec : exec i s = runForm i.opcode opSwp s := by fin_cases hi <;> rfl
  refine runsAs_of_body hexec fun u hcursor hstack hshort hsize => ?_
  rw [opSwp_eq, hcursor, hstack, hshort, hsize]

/-- Settles O23: three pops, and the pushes are one run of bytes. -/
theorem rotMovesTheThirdItemToTheTop : Obligations.RotMovesTheThirdItemToTheTop := by
  refine ⟨rfl, fun i hi s => ?_⟩
  have hexec : exec i s = runForm i.opcode opRot s := by fin_cases hi <;> rfl
  refine runsAs_of_body hexec fun u hcursor hstack hshort hsize => ?_
  rw [opRot_eq, hcursor, hstack, hshort, hsize]

/-- Settles O24: one pop, and its item is pushed twice. -/
theorem dupDuplicatesTheTopItem : Obligations.DupDuplicatesTheTopItem := by
  refine ⟨rfl, fun i hi s => ?_⟩
  have hexec : exec i s = runForm i.opcode opDup s := by fin_cases hi <;> rfl
  refine runsAs_of_body hexec fun u hcursor hstack hshort hsize => ?_
  rw [opDup_eq, hcursor, hstack, hshort, hsize]

/-- Settles O25: two pops, and the second item popped is pushed below and above the first. -/
theorem ovrCopiesTheSecondItemOver : Obligations.OvrCopiesTheSecondItemOver := by
  refine ⟨rfl, fun i hi s => ?_⟩
  have hexec : exec i s = runForm i.opcode opOvr s := by fin_cases hi <;> rfl
  refine runsAs_of_body hexec fun u hcursor hstack hshort hsize => ?_
  rw [opOvr_eq, hcursor, hstack, hshort, hsize]

end Sys2Proof.Machine
end

section
/-! PROOFS. 42_compare_jump_stash R150 to R157: comparison, control transfer and stash. A comparison is pops, then a push, and is read
off its closed form as the stack operations are; a jump is pops, then a change of the program counter; STH pops the active stack and
pushes to the other. What JMP does is said of `runForm` in every state, so that JSR is its push to the other stack and then JMP. -/
namespace Sys2Proof.Machine

/-! ### The state an instruction completes in (40_execution_cycle R112) -/

/-- What is left of a state when the instruction is over: the keep pointer and what was kept for records are discarded. -/
def State.settled (u : State) : State := { u with kptr := none, current := none }

theorem finish_done (a : Unit) (u : State) : finish (.done a u) = .next u.settled := rfl

@[simp] theorem settled_setStack (u : State) (id : StackId) (st : Stack) :
    (u.setStack id st).settled = u.settled.setStack id st := by
  cases id <;> rfl

@[simp] theorem settled_endEvaluate (u : State) (o : EvalOutcome) : u.settled.endEvaluate o = u.endEvaluate o := rfl

/-- After pops and no push the active stack's bytes stay, and its depth is where a push would start. -/
theorem settled_withCursor {s : State} {i : Instr} {pops : Nat} (h : pops ≤ (s.stack i.act).ptr.toNat) :
    ((s.decoded i.opcode).withCursor ((s.stack i.act).ptr.toNat - pops)).settled = s.ran i pops [] := by
  have hstored := setStack_withCursor s i ((s.stack i.act).ptr.toNat - pops) (pushBase i s pops) []
  rwa [← ptr_withCursor s i pops h, stored_nil, setStack_stack, ptr_withCursor s i pops h] at hstored

/-! ### Pops, then a change of state -/

/-- The end of an instruction whose pops find too few bytes (60_exceptions R272, R274). -/
theorem finish_underflow (s : State) (i : Instr) :
    finish (.raised ⟨.stackUnderflow, i.act⟩ ((s.decoded i.opcode).withCursor 0)) = .next (s.underflowed i) :=
  congrArg Host.Outcome.next (raise_underflow s i)

section
variable {s : State} {i : Instr} {pops : Nat} {f upd : State → State}

theorem finish_popThen_of_le (h : pops ≤ (s.stack i.act).ptr.toNat) (hf : ∀ u, (f u).settled = upd u.settled) :
    finish (popThen pops f (s.decoded i.opcode)) = .next (upd (s.ran i pops [])) := by
  obtain ⟨hcursor, -⟩ := cursor_decoded s i
  rw [popThen, hcursor, if_neg (by omega), finish_done, hf, settled_withCursor h]

theorem finish_popThen_of_lt (h : (s.stack i.act).ptr.toNat < pops) :
    finish (popThen pops f (s.decoded i.opcode)) = .next (s.underflowed i) := by
  obtain ⟨hcursor, hactive, -⟩ := cursor_decoded s i
  rw [popThen, hcursor, hactive, if_pos h, finish_underflow]

/-- The change `f` reads neither the keep pointer nor what is kept for records, so it can be made after they are discarded. -/
theorem popsAs_of_popThen {body : State → Res Unit} (hexec : exec i s = runForm i.opcode body s)
    (hbody : body (s.decoded i.opcode) = popThen pops f (s.decoded i.opcode)) (hf : ∀ u, (f u).settled = upd u.settled) :
    PopsAs i s pops upd := by
  rw [runForm, hbody] at hexec
  exact ⟨fun h => hexec.trans (finish_popThen_of_le h hf), fun h => hexec.trans (finish_popThen_of_lt h)⟩

end

/-! ### Comparison (R150 to R153) -/

theorem equal_eq (b a : Word) : equal b a = if b = a then 0x01 else 0x00 := by
  simp only [equal, truthByte, beq_iff_eq]

theorem notEqual_eq (b a : Word) : notEqual b a = if b = a then 0x00 else 0x01 := by
  simp only [notEqual, truthByte, bne_iff_ne, ite_not]

theorem greater_eq (b a : Word) : greater b a = if a.toNat < b.toNat then 0x01 else 0x00 := by
  simp only [greater, truthByte, BitVec.ult, decide_eq_true_eq]

theorem less_eq (b a : Word) : less b a = if b.toNat < a.toNat then 0x01 else 0x00 := greater_eq a b

/-- A comparison pops two items of the instruction's width and pushes one byte in either width. -/
theorem runsAs_of_opCompare {f : Word → Word → Byte} {s : State} {i : Instr}
    (hexec : exec i s = runForm i.opcode (opCompare f) s) :
    RunsAs i s (2 * i.size) [f ((s.stack i.act).item i.short ((s.stack i.act).ptr.toNat - i.size))
      ((s.stack i.act).item i.short (s.stack i.act).ptr.toNat)] id := by
  refine runsAs_of_body hexec fun u hcursor hstack hshort hsize => ?_
  rw [opCompare_eq, hcursor, hstack, hshort, hsize]

/-- Settles O26: both families run the comparison body, with equality and its negation. -/
theorem equNeqPushOneByte : Obligations.EquNeqPushOneByte := by
  refine ⟨⟨rfl, fun i hi s => ?_⟩, ⟨rfl, fun i hi s => ?_⟩⟩
  · have hexec : exec i s = runForm i.opcode (opCompare equal) s := by fin_cases hi <;> rfl
    have hruns := runsAs_of_opCompare hexec
    rwa [equal_eq] at hruns
  · have hexec : exec i s = runForm i.opcode (opCompare notEqual) s := by fin_cases hi <;> rfl
    have hruns := runsAs_of_opCompare hexec
    rwa [notEqual_eq] at hruns

/-- Settles O27: both families run the comparison body, with the unsigned order and its converse. -/
theorem gthLthCompareUnsigned : Obligations.GthLthCompareUnsigned := by
  refine ⟨⟨rfl, fun i hi s => ?_⟩, ⟨rfl, fun i hi s => ?_⟩⟩
  · have hexec : exec i s = runForm i.opcode (opCompare greater) s := by fin_cases hi <;> rfl
    have hruns := runsAs_of_opCompare hexec
    rwa [greater_eq] at hruns
  · have hexec : exec i s = runForm i.opcode (opCompare less) s := by fin_cases hi <;> rfl
    have hruns := runsAs_of_opCompare hexec
    rwa [less_eq] at hruns

/-! ### The target of a jump (40_execution_cycle R125) -/

/-- Sign extension adds 0xFF00 to a byte whose sign bit is set (00_scope R17). -/
theorem toNat_sext16 (d : Byte) : (sext16 d).toNat = if d.toNat < 0x80 then d.toNat else d.toNat + 0xFF00 := by
  have hmsb : d.msb = decide (0x80 ≤ d.toNat) := BitVec.msb_eq_decide d
  have hlt := d.isLt
  rw [sext16, BitVec.toNat_signExtend, BitVec.toNat_setWidth, hmsb]
  by_cases hneg : 0x80 ≤ d.toNat
  · rw [if_pos (by simpa using hneg), if_neg (by omega)]
    omega
  · rw [if_neg (by simpa using hneg), if_pos (by omega)]
    omega

theorem relative_eq_displaced (s : State) (d : Byte) : s.relative d = displaced s.pc d := by
  rw [displaced, ← toNat_sext16, BitVec.ofNat_add, BitVec.ofNat_toNat, BitVec.ofNat_toNat, BitVec.setWidth_eq,
    BitVec.setWidth_eq, State.relative]

theorem resolve_decoded (s : State) (i : Instr) (t : Word) : (s.decoded i.opcode).resolve t = jumpTarget i s t := by
  rw [State.resolve, relative_eq_displaced]
  rfl

/-! ### Jumps (R154, R155) -/

/-- The body of JMP as the instruction decodes it. -/
theorem opJmp_decoded (s : State) (i : Instr) :
    opJmp (s.decoded i.opcode) = popThen i.size
      (fun u => u.setPc (jumpTarget i s ((s.stack i.act).item i.short (s.stack i.act).ptr.toNat))) (s.decoded i.opcode) := by
  obtain ⟨hcursor, hactive, hshort, hsize, -⟩ := cursor_decoded s i
  rw [opJmp_eq, resolve_decoded, hcursor, hactive, hshort, hsize, decoded_stack]

theorem runForm_opJmp_of_le {s : State} {i : Instr} (h : i.size ≤ (s.stack i.act).ptr.toNat) :
    runForm i.opcode opJmp s = .next ((s.ran i i.size []).setPc
      (jumpTarget i s ((s.stack i.act).item i.short (s.stack i.act).ptr.toNat))) := by
  rw [runForm, opJmp_decoded]
  exact finish_popThen_of_le (upd := fun u => u.setPc _) h fun _ => rfl

theorem runForm_opJmp_of_lt {s : State} {i : Instr} (h : (s.stack i.act).ptr.toNat < i.size) :
    runForm i.opcode opJmp s = .next (s.underflowed i) := by
  rw [runForm, opJmp_decoded, finish_popThen_of_lt h]

/-- Settles O28: the target is read off the active stack, and a jump changes the program counter alone. -/
theorem jmpGoesToTheResolvedTarget : Obligations.JmpGoesToTheResolvedTarget := by
  refine ⟨rfl, fun i hi s => ?_⟩
  have hexec : exec i s = runForm i.opcode opJmp s := by fin_cases hi <;> rfl
  exact ⟨fun hpops => hexec.trans (runForm_opJmp_of_le hpops), fun hlacks => hexec.trans (runForm_opJmp_of_lt hlacks)⟩

theorem taken_iff (c : Byte) : taken c = true ↔ c ≠ 0 := bne_iff_ne

/-- The body of JCN as the instruction decodes it: a condition byte of 0 leaves the state as the pops left it. -/
theorem opJcn_decoded (s : State) (i : Instr) :
    opJcn (s.decoded i.opcode) = popThen (i.size + 1)
      (fun u => if (s.stack i.act).cell ((s.stack i.act).ptr.toNat - i.size - 1) = 0 then u
        else u.setPc (jumpTarget i s ((s.stack i.act).item i.short (s.stack i.act).ptr.toNat))) (s.decoded i.opcode) := by
  obtain ⟨hcursor, hactive, hshort, hsize, -⟩ := cursor_decoded s i
  rw [opJcn_eq, resolve_decoded, hcursor, hactive, hshort, hsize, decoded_stack]
  simp only [taken_iff, ite_not]

/-- Settles O29: the condition is the byte below the target, and it decides whether the jump is made. -/
theorem jcnJumpsOnANonzeroByte : Obligations.JcnJumpsOnANonzeroByte := by
  refine ⟨rfl, fun i hi s => ?_⟩
  have hexec : exec i s = runForm i.opcode opJcn s := by fin_cases hi <;> rfl
  refine popsAs_of_popThen hexec (opJcn_decoded s i) fun u => ?_
  split <;> rfl

/-! ### Pushes to the other stack (20_memory R62, R67) -/

theorem act_ne_oth (i : Instr) : i.act ≠ i.oth := by
  unfold Instr.act Instr.oth
  split <;> decide

/-- A run of pushes that does not fit, at the end of the instruction: the bytes that fit stay, and the evaluate ends with the
record of the overflow (60_exceptions R272, R273, R276). -/
theorem finish_pushAll_of_gt {u : State} {id : StackId} {out : List Byte} (h : 255 < (u.stack id).ptr.toNat + out.length) :
    finish (pushAll id out u) = .next
      ((u.setStack id ((u.stack id).stored (u.stack id).ptr.toNat (out.take (255 - (u.stack id).ptr.toNat)))).endEvaluate
        (.error ⟨0x02, .stackOverflow, id, u.opcode, u.opAddr, 255⟩)) := by
  have hlt := (u.stack id).ptr.isLt
  rw [pushAll_eq, if_neg (by omega), finish, raise_overflow_setStack _ _ (stored_take_ptr _ (by omega) h)]

theorem pushAll_of_le {u : State} {id : StackId} {out : List Byte} (h : (u.stack id).ptr.toNat + out.length ≤ 255) :
    pushAll id out u = .done () (u.setStack id ((u.stack id).stored (u.stack id).ptr.toNat out)) := by
  rw [pushAll_eq, if_pos h]

/-- What follows pushes that do not fit is not run (40_execution_cycle R121). -/
theorem pushAll_bind_of_gt {u : State} {id : StackId} {out : List Byte} (f : Unit → State → Res Unit)
    (h : 255 < (u.stack id).ptr.toNat + out.length) : (pushAll id out u).bind f = pushAll id out u := by
  rw [pushAll_eq, if_neg (by omega), raised_bind]

/-! ### JSR (R156) -/

theorem decoded_setStack (s : State) (b : Byte) (id : StackId) (st : Stack) :
    (s.setStack id st).decoded b = (s.decoded b).setStack id st := by
  cases id <;> rfl

theorem decoded_endEvaluate (s : State) (b : Byte) (o : EvalOutcome) : (s.decoded b).endEvaluate o = s.endEvaluate o := rfl

/-- JSR pushes the program counter to the other stack, and goes on as JMP. -/
theorem opJsr_eq (s : State) : opJsr s = (pushAll s.other [highByte s.pc, lowByte s.pc] s).bind fun _ t => opJmp t := by
  rw [opJsr, pushDst16, push16_eq]
  rfl

/-- With no room for the return address, JSR ends as its push does, and the active stack is as it was. -/
theorem runForm_opJsr_of_gt {s : State} {i : Instr} (h : 255 < (s.stack i.oth).ptr.toNat + 2) :
    runForm i.opcode opJsr s =
      .next (s.overflowed i i.oth (s.stack i.oth).ptr.toNat [highByte s.pc, lowByte s.pc]) := by
  obtain ⟨-, -, -, -, hother, -⟩ := cursor_decoded s i
  have hspills : 255 < ((s.decoded i.opcode).stack i.oth).ptr.toNat + [highByte s.pc, lowByte s.pc].length := by
    rwa [decoded_stack]
  rw [runForm, opJsr_eq, hother, decoded_pc, pushAll_bind_of_gt _ hspills, finish_pushAll_of_gt hspills, decoded_stack,
    decoded_opcode, decoded_opAddr, ← decoded_setStack, decoded_endEvaluate, State.overflowed]

/-- With room for the return address, JSR is JMP at the state with the return address stashed. -/
theorem runForm_opJsr_of_le {s : State} {i : Instr} (h : (s.stack i.oth).ptr.toNat + 2 ≤ 255) :
    runForm i.opcode opJsr s = runForm i.opcode opJmp
      (s.setStack i.oth ((s.stack i.oth).stored (s.stack i.oth).ptr.toNat [highByte s.pc, lowByte s.pc])) := by
  obtain ⟨-, -, -, -, hother, -⟩ := cursor_decoded s i
  have hfits : ((s.decoded i.opcode).stack i.oth).ptr.toNat + [highByte s.pc, lowByte s.pc].length ≤ 255 := by
    rwa [decoded_stack]
  rw [runForm, opJsr_eq, hother, decoded_pc, pushAll_of_le hfits, done_bind, decoded_stack, ← decoded_setStack, runForm]

/-- The other stack plays no part in what an instruction leaves on its active stack. -/
theorem ran_setStack_oth (s : State) (i : Instr) (pops : Nat) (out : List Byte) (st : Stack) :
    (s.setStack i.oth st).ran i pops out = (s.ran i pops out).setStack i.oth st := by
  have hact : (s.setStack i.oth st).stack i.act = s.stack i.act := stack_setStack_ne _ _ _ _ (act_ne_oth i).symm
  have hmodes : (s.setStack i.oth st).afterModes i = (s.afterModes i).setStack i.oth st := by cases i.oth <;> rfl
  rw [State.ran, State.ran, pushBase, pushBase, hact, hmodes, setStack_comm _ _ _ _ _ (act_ne_oth i).symm]

/-- Settles O30: the stash leaves the active stack and the program counter as they were, so that the jump after it is JMP's. -/
theorem jsrStashesThePcAndJumps : Obligations.JsrStashesThePcAndJumps := by
  refine ⟨rfl, fun i hi s => ?_⟩
  have hexec : exec i s = runForm i.opcode opJsr s := by fin_cases hi <;> rfl
  intro st d ot back t
  have hact : (s.setStack i.oth (ot.stored ot.ptr.toNat back)).stack i.act = st :=
    stack_setStack_ne _ _ _ _ (act_ne_oth i).symm
  refine ⟨fun hspills => ?_, fun hfits hlacks => ?_, fun hfits hpops => ?_⟩
  · rw [hexec, runForm_opJsr_of_gt hspills]
  · rw [hexec, runForm_opJsr_of_le hfits, runForm_opJmp_of_lt (by rwa [hact])]
  · rw [hexec, runForm_opJsr_of_le hfits, runForm_opJmp_of_le (by rwa [hact]), ran_setStack_oth, hact, jumpTarget, setStack_pc]
    rfl

/-! ### STH (R157) -/

/-- The body of STH as the instruction decodes it. -/
theorem opSth_decoded (s : State) (i : Instr) :
    opSth (s.decoded i.opcode) =
      if (s.stack i.act).ptr.toNat < i.size then .raised ⟨.stackUnderflow, i.act⟩ ((s.decoded i.opcode).withCursor 0)
      else pushAll i.oth (itemBytes i.short ((s.stack i.act).item i.short (s.stack i.act).ptr.toNat))
        ((s.decoded i.opcode).withCursor ((s.stack i.act).ptr.toNat - i.size)) := by
  obtain ⟨hcursor, hactive, hshort, hsize, hother, -⟩ := cursor_decoded s i
  rw [opSth, pop_bind, pushDst_eq, withCursor_short, withCursor_other, hcursor, hactive, hshort, hsize, hother, decoded_stack]

theorem length_itemBytes (i : Instr) (v : Word) : (itemBytes i.short v).length = i.size := by
  unfold itemBytes Instr.size
  split <;> rfl

/-- The pops of the active stack leave the other stack as it was. -/
theorem decoded_withCursor_stack_oth (s : State) (i : Instr) (c : Nat) :
    ((s.decoded i.opcode).withCursor c).stack i.oth = s.stack i.oth := by
  have hother := withCursor_stack_other (s.decoded i.opcode) c
  rwa [decoded_stack] at hother

/-- The end of an evaluate forgets the modes that a completed instruction would have left. -/
theorem ran_setStack_endEvaluate (s : State) (i : Instr) (pops : Nat) (out : List Byte) (id : StackId) (st : Stack)
    (o : EvalOutcome) :
    ((s.ran i pops out).setStack id st).endEvaluate o =
      ((s.setStack i.act ((s.stack i.act).stored (pushBase i s pops) out)).setStack id st).endEvaluate o := by
  rw [State.ran]
  cases i.act <;> cases id <;> rfl

/-- Settles O31: a pop of the active stack, then a push of the same bytes to the other. -/
theorem sthMovesAnItemToTheOtherStack : Obligations.SthMovesAnItemToTheOtherStack := by
  refine ⟨rfl, fun i hi s => ?_⟩
  have hexec : exec i s = runForm i.opcode opSth s := by fin_cases hi <;> rfl
  rw [runForm, opSth_decoded] at hexec
  intro st d ot bytes
  have hlength : bytes.length = i.size := length_itemBytes _ _
  have hoth : ((s.decoded i.opcode).withCursor (d - i.size)).stack i.oth = ot := decoded_withCursor_stack_oth _ _ _
  refine ⟨fun hlacks => ?_, fun hpops hfits => ?_, fun hpops hspills => ?_⟩
  · rw [hexec, if_pos hlacks, finish_underflow]
  · rw [hexec, if_neg hpops.not_gt, pushAll_of_le (by rwa [hoth, hlength]), finish_done, settled_setStack,
      settled_withCursor hpops, hoth]
  · have hother : (s.setStack i.act (st.stored (pushBase i s i.size) [])).stack i.oth = ot :=
      stack_setStack_ne _ _ _ _ (act_ne_oth i)
    rw [hexec, if_neg hpops.not_gt, finish_pushAll_of_gt (by rwa [hoth, hlength]), ← settled_endEvaluate, settled_setStack,
      settled_withCursor hpops, ran_setStack_endEvaluate, hoth, State.overflowed, hother, withCursor_opcode,
      withCursor_opAddr, decoded_opcode, decoded_opAddr, setStack_pc]

end Sys2Proof.Machine
end

section
/-! PROOFS. 43_memory_device_ops R170 to R177: memory and device access. A load is pops, then a push of the bytes found, and is read
off its closed form as the stack operations are; a store is pops, then `memWrite`, of which `Laws/Memory` says every byte of RAM. DEO
is pops, then `devWrite`, which reads what is kept for records but never the keep pointer: so it may be run with the keep pointer
already discarded, as the statement has it. -/
namespace Sys2Proof.Machine

/-! ### Loads (R170, R172, R174) -/

/-- What a load pushes is the bytes it found, the high byte below (20_memory R56, R58). -/
theorem itemBytes_memRead (i : Instr) (s : State) (a : Word) :
    itemBytes i.short (s.memRead i.short a) = loadedBytes i s a := by
  unfold itemBytes State.memRead loadedBytes
  cases i.short with
  | false => simp only [Bool.false_eq_true, if_false, lowByte_zext16]
  | true => simp only [if_true, highByte_shortOf, lowByte_shortOf]

theorem decoded_memRead (s : State) (b : Byte) (wide : Bool) (a : Word) :
    (s.decoded b).memRead wide a = s.memRead wide a := rfl

theorem decoded_relative (s : State) (b d : Byte) : (s.decoded b).relative d = s.relative d := rfl

/-- Settles O32: the address is the popped byte, zero-extended, and the bytes there are pushed. -/
theorem ldzLoadsFromTheZeroPage : Obligations.LdzLoadsFromTheZeroPage := by
  refine ⟨rfl, fun i hi s => ?_⟩
  have hexec : exec i s = runForm i.opcode opLdz s := by fin_cases hi <;> rfl
  obtain ⟨hcursor, hactive, hshort, -⟩ := cursor_decoded s i
  refine runForm_popPush s i 1 _ opLdz hexec ?_
  rw [opLdz_eq, hcursor, hactive, hshort, decoded_stack, decoded_memRead, itemBytes_memRead]

/-- Settles O34: the address is the displaced program counter, which is already past the opcode. -/
theorem ldrLoadsRelativeToThePc : Obligations.LdrLoadsRelativeToThePc := by
  refine ⟨rfl, fun i hi s => ?_⟩
  have hexec : exec i s = runForm i.opcode opLdr s := by fin_cases hi <;> rfl
  obtain ⟨hcursor, hactive, hshort, -⟩ := cursor_decoded s i
  refine runForm_popPush s i 1 _ opLdr hexec ?_
  rw [opLdr_eq, hcursor, hactive, hshort, decoded_stack, decoded_relative, decoded_memRead, itemBytes_memRead,
    relative_eq_displaced]

/-- Settles O36: the address is a popped short, whatever the width of what is loaded. -/
theorem ldaLoadsAbsolute : Obligations.LdaLoadsAbsolute := by
  refine ⟨rfl, fun i hi s => ?_⟩
  have hexec : exec i s = runForm i.opcode opLda s := by fin_cases hi <;> rfl
  obtain ⟨hcursor, hactive, hshort, -⟩ := cursor_decoded s i
  refine runForm_popPush s i 2 _ opLda hexec ?_
  rw [opLda_eq, hcursor, hactive, hshort, decoded_stack, decoded_memRead, itemBytes_memRead]

/-! ### Stores (R171, R173, R175) -/

theorem settled_memWrite (u : State) (wide : Bool) (a v : Word) :
    (u.memWrite wide a v).settled = u.settled.memWrite wide a v := by
  unfold State.memWrite
  split <;> rfl

@[simp] theorem ran_ram (s : State) (i : Instr) (pops : Nat) (out : List Byte) : (s.ran i pops out).ram = s.ram := by
  rw [State.ran, setStack_ram, afterModes_ram]

/-- A body that pops its operands and then stores: RAM is read byte by byte, and a store changes nothing else. -/
theorem storesAs_of_body {s : State} {i : Instr} {pops : Nat} {addr v : Word} {body : State → Res Unit}
    (hram : Memory.wf s.ram = true) (hexec : exec i s = runForm i.opcode body s)
    (hbody : body (s.decoded i.opcode) = popThen pops (fun u => u.memWrite i.short addr v) (s.decoded i.opcode)) :
    StoresAs i s pops addr v := by
  obtain ⟨hcompletes, hunderflows⟩ :=
    popsAs_of_popThen (upd := fun u => u.memWrite i.short addr v) hexec hbody fun u => settled_memWrite u _ _ _
  have hran : Memory.wf (s.ran i pops []).ram = true := by rwa [ran_ram]
  refine ⟨fun hpops => ⟨((s.ran i pops []).memWrite i.short addr v).ram, ?_, memWrite_wf _ _ _ _ hran, fun a => ?_⟩,
    hunderflows⟩
  · rw [hcompletes hpops, ← memWrite_eq]
  · have hbyte := ramByte_memWrite _ i.short addr a v hran
    rwa [State.ramByte, State.ramByte, ran_ram] at hbyte

/-- Settles O33: the address is the byte popped first, zero-extended. -/
theorem stzStoresToTheZeroPage : Obligations.StzStoresToTheZeroPage := by
  refine ⟨rfl, fun i hi s hram => ?_⟩
  have hexec : exec i s = runForm i.opcode opStz s := by fin_cases hi <;> rfl
  obtain ⟨hcursor, hactive, hshort, hsize, -⟩ := cursor_decoded s i
  refine storesAs_of_body hram hexec ?_
  rw [opStz_eq, hcursor, hactive, hshort, hsize, decoded_stack]

/-- Settles O35: the address is the program counter, which is already past the opcode, plus the byte popped first. -/
theorem strStoresRelativeToThePc : Obligations.StrStoresRelativeToThePc := by
  refine ⟨rfl, fun i hi s hram => ?_⟩
  have hexec : exec i s = runForm i.opcode opStr s := by fin_cases hi <;> rfl
  obtain ⟨hcursor, hactive, hshort, hsize, -⟩ := cursor_decoded s i
  refine storesAs_of_body hram hexec ?_
  rw [opStr_eq, hcursor, hactive, hshort, hsize, decoded_stack, decoded_relative]

/-- Settles O37: the address is a short popped first, whatever the width of the value below it. -/
theorem staStoresAbsolute : Obligations.StaStoresAbsolute := by
  refine ⟨rfl, fun i hi s hram => ?_⟩
  have hexec : exec i s = runForm i.opcode opSta s := by fin_cases hi <;> rfl
  obtain ⟨hcursor, hactive, hshort, hsize, -⟩ := cursor_decoded s i
  refine storesAs_of_body hram hexec ?_
  rw [opSta_eq, hcursor, hactive, hshort, hsize, decoded_stack]

/-! ### DEI (R176) -/

/-- What a port read pushes is the stored bytes of the ports, the high byte below (45_device_bus R211). -/
theorem itemBytes_devRead (s : State) (wide : Bool) (p : Byte) :
    itemBytes wide (s.devRead wide p) = if wide then [s.devByte p, s.devByte (p + 1)] else [s.devByte p] := by
  unfold itemBytes State.devRead
  cases wide with
  | false => simp only [Bool.false_eq_true, if_false, lowByte_zext16]
  | true => simp only [if_true, State.devShort, highByte_shortOf, lowByte_shortOf]

theorem decoded_devRead (s : State) (b : Byte) (wide : Bool) (p : Byte) :
    (s.decoded b).devRead wide p = s.devRead wide p := rfl

/-- Settles O38: a port is popped and its stored bytes are pushed, with no device handler run. -/
theorem deiReadsThePortPlainly : Obligations.DeiReadsThePortPlainly := by
  refine ⟨rfl, fun i hi s => ?_⟩
  have hexec : exec i s = runForm i.opcode opDei s := by fin_cases hi <;> rfl
  obtain ⟨hcursor, hactive, hshort, -⟩ := cursor_decoded s i
  refine runForm_popPush s i 1 _ opDei hexec ?_
  rw [opDei_eq, hcursor, hactive, hshort, decoded_stack, decoded_devRead, itemBytes_devRead]

/-! ### The keep pointer under a device write (45_device_bus R212) -/

/-- The state with keep pointer `k` (10_state R29). -/
def State.withKptr (s : State) (k : Option Byte) : State := { s with kptr := k }

theorem settled_eq_withKptr (u : State) : u.settled = { u.withKptr none with current := none } := rfl

theorem systemHandler_withKptr (p v : Byte) (s : State) (k : Option Byte) :
    systemHandler p v (s.withKptr k) = (systemHandler p v s).withKptr k := by
  unfold systemHandler
  split <;> rfl

theorem consoleHandler_withKptr (p v : Byte) (s : State) (k : Option Byte) :
    consoleHandler p v (s.withKptr k) = (consoleHandler p v s).withKptr k := by
  unfold consoleHandler
  split <;> rfl

theorem setDevShort_if_withKptr (advance : Bool) (s : State) (p : Byte) (v : Word) (k : Option Byte) :
    (if advance then (s.withKptr k).setDevShort p v else s.withKptr k) =
      (if advance then s.setDevShort p v else s).withKptr k := by
  split <;> rfl

theorem pixelCommand_withKptr (s : State) (k : Option Byte) :
    pixelCommand (s.withKptr k) = (pixelCommand s).withKptr k := by
  simp only [pixelCommand, ← setDevShort_if_withKptr]
  rfl

theorem spriteCommand_withKptr (s : State) (k : Option Byte) :
    spriteCommand (s.withKptr k) = (spriteCommand s).withKptr k := by
  simp only [spriteCommand, apply_ite (State.withKptr · k)]
  rfl

theorem screenHandler_withKptr (p : Byte) (s : State) (k : Option Byte) :
    screenHandler p (s.withKptr k) = (screenHandler p s).withKptr k := by
  unfold screenHandler
  split_ifs
  · rfl
  · rfl
  · exact pixelCommand_withKptr s k
  · exact spriteCommand_withKptr s k
  · rfl

theorem deviceHandler_withKptr (p v : Byte) (s : State) (k : Option Byte) :
    deviceHandler p v (s.withKptr k) = (deviceHandler p v s).withKptr k := by
  unfold deviceHandler
  split
  · exact systemHandler_withKptr p v s k
  · exact consoleHandler_withKptr p v s k
  · exact screenHandler_withKptr p s k
  · rfl

theorem devWriteByte_withKptr (p v : Byte) (s : State) (k : Option Byte) :
    devWriteByte p v (s.withKptr k) = (devWriteByte p v s).withKptr k :=
  deviceHandler_withKptr p v (s.setDevByte p v) k

/-- No device reads or changes the keep pointer. -/
theorem devWrite_withKptr (wide : Bool) (p : Byte) (v : Word) (s : State) (k : Option Byte) :
    devWrite wide p v (s.withKptr k) = (devWrite wide p v s).withKptr k := by
  cases wide with
  | false => exact devWriteByte_withKptr p (lowByte v) s k
  | true =>
    simp only [devWrite, if_true]
    rw [devWriteByte_withKptr, devWriteByte_withKptr]

/-! ### DEO (R177) -/

/-- The state in which a DEO writes its port: opcode `b` at address `p` is at hand for diagnostics (60_exceptions R277). -/
def State.executing (s : State) (b : Byte) (p : Word) : State := { s with current := some ⟨b, p⟩ }

/-- The pops leave at hand what the decode put there. -/
theorem executing_withCursor_decoded (s : State) (b : Byte) (c : Nat) :
    ((s.decoded b).withCursor c).executing b (s.pc - 1) = (s.decoded b).withCursor c := by
  have hcurrent : ((s.decoded b).withCursor c).current = some ⟨b, s.pc - 1⟩ := withCursor_current _ _
  rw [State.executing, ← hcurrent]

/-- The body of DEO as the instruction decodes it. -/
theorem opDeo_decoded (s : State) (i : Instr) :
    opDeo (s.decoded i.opcode) = popThen (1 + i.size)
      (fun u => devWrite i.short ((s.stack i.act).cell ((s.stack i.act).ptr.toNat - 1))
        ((s.stack i.act).item i.short ((s.stack i.act).ptr.toNat - 1)) (u.executing i.opcode (s.pc - 1)))
      (s.decoded i.opcode) := by
  obtain ⟨hcursor, hactive, hshort, hsize, -⟩ := cursor_decoded s i
  rw [opDeo_eq, hcursor, hactive, hshort, hsize, decoded_stack, popThen, popThen, executing_withCursor_decoded]

/-- Settles O39: the device is written at the state the pops left, whose keep pointer it does not read. -/
theorem deoWritesThePort : Obligations.DeoWritesThePort := by
  refine ⟨rfl, fun i hi s => ?_⟩
  have hexec : exec i s = runForm i.opcode opDeo s := by fin_cases hi <;> rfl
  refine popsAs_of_popThen hexec (opDeo_decoded s i) fun u => ?_
  rw [settled_eq_withKptr, ← devWrite_withKptr]
  rfl

end Sys2Proof.Machine
end

section
/-! PROOFS. 44_arith_logic R190 to R197: arithmetic and logic. The operands are zero-extended to 16 bits and the operation is done
there; the push keeps of the 16-bit result what the width has. So each statement, which takes its result mod 2^w on naturals, is the
closed form of `Laws/Bodies` with a congruence mod 2^w. DIV may raise between its pops and its push. -/
namespace Sys2Proof.Machine

/-! ### Results mod 2^w (44_arith_logic, its opening) -/

theorem modulus_dvd (i : Instr) : i.modulus ∣ 2 ^ 16 := by
  unfold Instr.modulus
  split <;> decide

/-- A 16-bit result and a natural result push the same bytes when they agree mod 2^w. -/
theorem itemBytes_ofNat_mod_eq {i : Instr} {n : Nat} {v : Word} (h : v.toNat % i.modulus = n % i.modulus) :
    itemBytes i.short (BitVec.ofNat 16 (n % i.modulus)) = itemBytes i.short v := by
  rw [← h, itemBytes_ofNat_mod, BitVec.ofNat_toNat, BitVec.setWidth_eq]

theorem add_toNat_mod_modulus (i : Instr) (b a : Word) :
    (b + a).toNat % i.modulus = (b.toNat + a.toNat) % i.modulus := by
  rw [BitVec.toNat_add, Nat.mod_mod_of_dvd _ (modulus_dvd i)]

theorem mul_toNat_mod_modulus (i : Instr) (b a : Word) :
    (b * a).toNat % i.modulus = b.toNat * a.toNat % i.modulus := by
  rw [BitVec.toNat_mul, Nat.mod_mod_of_dvd _ (modulus_dvd i)]

/-- The 16-bit difference borrows 2^16 where the statement borrows 2^w. -/
theorem sub_toNat_mod_modulus (i : Instr) (b : Word) {a : Word} (ha : a.toNat < i.modulus) :
    (b - a).toNat % i.modulus = (b.toNat + i.modulus - a.toNat) % i.modulus := by
  rw [BitVec.toNat_sub, Nat.mod_mod_of_dvd _ (modulus_dvd i)]
  obtain hshort | hbyte : i.modulus = 65536 ∨ i.modulus = 256 := ite_eq_or_eq _ _ _
  · rw [hshort] at ha ⊢
    omega
  · rw [hbyte] at ha ⊢
    omega

/-- An operand is zero-extended from its width (41_stack_ops, its opening). -/
theorem item_toNat_lt_modulus (i : Instr) (st : Stack) (d : Nat) : (st.item i.short d).toNat < i.modulus := by
  unfold Stack.item Instr.modulus
  cases i.short with
  | false => exact (BitVec.toNat_setWidth_of_le (by decide)).trans_lt (st.cell (d - 1)).isLt
  | true => exact (shortOf (st.cell (d - 2)) (st.cell (d - 1))).isLt

/-! ### The two-operand operations (R190 to R192, R194 to R196) -/

/-- A two-operand operation pops two items of the instruction's width and pushes one, in every state. -/
theorem runsAs_of_opBinary {f : Word → Word → Word} {s : State} {i : Instr}
    (hexec : exec i s = runForm i.opcode (opBinary f) s) :
    RunsAs i s (2 * i.size) (itemBytes i.short (f ((s.stack i.act).item i.short ((s.stack i.act).ptr.toNat - i.size))
      ((s.stack i.act).item i.short (s.stack i.act).ptr.toNat))) id := by
  refine runsAs_of_body hexec fun u hcursor hstack hshort hsize => ?_
  rw [opBinary_eq, hcursor, hstack, hshort, hsize]

/-- Settles O40: the 16-bit sum agrees with the sum mod 2^w. -/
theorem addWrapsModWidth : Obligations.AddWrapsModWidth := by
  refine ⟨rfl, fun i hi s => ?_⟩
  have hexec : exec i s = runForm i.opcode (opBinary fun b a => b + a) s := by fin_cases hi <;> rfl
  intro st d a b
  rw [itemBytes_ofNat_mod_eq (add_toNat_mod_modulus i b a)]
  exact runsAs_of_opBinary hexec

/-- Settles O41: the operand subtracted is below 2^w, so a borrow of 2^w is enough. -/
theorem subSubtractsTheTopItem : Obligations.SubSubtractsTheTopItem := by
  refine ⟨rfl, fun i hi s => ?_⟩
  have hexec : exec i s = runForm i.opcode (opBinary fun b a => b - a) s := by fin_cases hi <;> rfl
  intro st d a b
  rw [itemBytes_ofNat_mod_eq (sub_toNat_mod_modulus i b (item_toNat_lt_modulus i st d))]
  exact runsAs_of_opBinary hexec

/-- Settles O42: the 16-bit product agrees with the product mod 2^w. -/
theorem mulKeepsTheLowBits : Obligations.MulKeepsTheLowBits := by
  refine ⟨rfl, fun i hi s => ?_⟩
  have hexec : exec i s = runForm i.opcode (opBinary fun b a => b * a) s := by fin_cases hi <;> rfl
  intro st d a b
  rw [itemBytes_ofNat_mod_eq (mul_toNat_mod_modulus i b a)]
  exact runsAs_of_opBinary hexec

/-- Settles O44: the three families run the two-operand body, each with its own operation on words. -/
theorem andOraEorAreBitwise : Obligations.AndOraEorAreBitwise := by
  refine ⟨⟨rfl, fun i hi s => ?_⟩, ⟨rfl, fun i hi s => ?_⟩, ⟨rfl, fun i hi s => ?_⟩⟩
  · have hexec : exec i s = runForm i.opcode (opBinary fun b a => b &&& a) s := by fin_cases hi <;> rfl
    exact runsAs_of_opBinary hexec
  · have hexec : exec i s = runForm i.opcode (opBinary fun b a => b ||| a) s := by fin_cases hi <;> rfl
    exact runsAs_of_opBinary hexec
  · have hexec : exec i s = runForm i.opcode (opBinary fun b a => b ^^^ a) s := by fin_cases hi <;> rfl
    exact runsAs_of_opBinary hexec

/-! ### DIV (R193) -/

/-- A fatal error raised on the active stack after its pops: they stay done, or not with k = 1, and the record has the real depth
(60_exceptions R272, R275, R276). -/
theorem raise_withCursor (s : State) (i : Instr) (k : FatalKind) {pops : Nat} (h : pops ≤ (s.stack i.act).ptr.toNat) :
    raise ⟨k, i.act⟩ ((s.decoded i.opcode).withCursor ((s.stack i.act).ptr.toNat - pops)) =
      (s.setStack i.act { s.stack i.act with ptr := BitVec.ofNat 8 (pushBase i s pops) }).endEvaluate
        (.error ⟨k.code, k, i.act, i.opcode, s.pc - 1, BitVec.ofNat 8 (pushBase i s pops)⟩) := by
  have hdepth : (((s.decoded i.opcode).withCursor ((s.stack i.act).ptr.toNat - pops)).stack i.act).ptr =
      BitVec.ofNat 8 (pushBase i s pops) := by
    rw [← ptr_withCursor s i pops h, BitVec.ofNat_toNat, BitVec.setWidth_eq]
  rw [raise, State.errorRecord, hdepth, withCursor_opcode, withCursor_opAddr, decoded_opcode, decoded_opAddr,
    ← settled_endEvaluate, settled_withCursor h, State.ran]
  cases i.act <;> rfl

/-- The body of DIV as the instruction decodes it, with a zero divisor: it raises, one error or the other. -/
theorem opDiv_decoded_of_eq_zero {s : State} {i : Instr}
    (ha : (s.stack i.act).item i.short (s.stack i.act).ptr.toNat = 0) :
    opDiv (s.decoded i.opcode) =
      if (s.stack i.act).ptr.toNat < 2 * i.size then .raised ⟨.stackUnderflow, i.act⟩ ((s.decoded i.opcode).withCursor 0)
      else .raised ⟨.divisionByZero, i.act⟩
        ((s.decoded i.opcode).withCursor ((s.stack i.act).ptr.toNat - 2 * i.size)) := by
  obtain ⟨hcursor, hactive, hshort, hsize, -⟩ := cursor_decoded s i
  rw [opDiv_eq, hcursor, hactive, hshort, hsize, decoded_stack, if_pos ha]

/-- With a nonzero divisor, DIV runs as the other two-operand operations do. -/
theorem runsAs_of_opDiv {s : State} {i : Instr} (hexec : exec i s = runForm i.opcode opDiv s)
    (ha : (s.stack i.act).item i.short (s.stack i.act).ptr.toNat ≠ 0) :
    RunsAs i s (2 * i.size)
      (itemBytes i.short (((s.stack i.act).item i.short ((s.stack i.act).ptr.toNat - i.size)).udiv
        ((s.stack i.act).item i.short (s.stack i.act).ptr.toNat))) id := by
  refine runsAs_of_body hexec fun u hcursor hstack hshort hsize => ?_
  rw [opDiv_eq, hcursor, hstack, hshort, hsize, if_neg ha]

theorem ofNat_div_toNat (b a : Word) : BitVec.ofNat 16 (b.toNat / a.toNat) = b.udiv a := by
  rw [← BitVec.toNat_udiv, BitVec.ofNat_toNat, BitVec.setWidth_eq]
  rfl

/-- Settles O43: a zero divisor is found after both pops; with too few bytes for them, the underflow comes first in either case. -/
theorem divDividesUnsignedOrTraps : Obligations.DivDividesUnsignedOrTraps := by
  refine ⟨rfl, fun i hi s => ?_⟩
  have hexec : exec i s = runForm i.opcode opDiv s := by fin_cases hi <;> rfl
  intro st d a b left
  refine ⟨fun hlacks => ?_, fun hpops ha => ?_, fun ha => ?_⟩
  · by_cases ha : a = 0
    · rw [hexec, runForm, opDiv_decoded_of_eq_zero ha, if_pos hlacks, finish_underflow]
    · obtain ⟨-, hunderflows, -⟩ := runsAs_of_opDiv hexec ha
      exact hunderflows hlacks
  · rw [hexec, runForm, opDiv_decoded_of_eq_zero ha, if_neg hpops.not_gt, finish, raise_withCursor s i _ hpops]
    rfl
  · rw [ofNat_div_toNat]
    exact runsAs_of_opDiv hexec ha

/-! ### SFT (R197) -/

theorem lowNibble_toNat (sh : Byte) : (sh.extractLsb' 0 4).toNat = sh.toNat % 16 := by
  rw [BitVec.extractLsb'_toNat, Nat.shiftRight_zero]

theorem highNibble_toNat (sh : Byte) : (sh.extractLsb' 4 4).toNat = sh.toNat / 16 := by
  have hlt := sh.isLt
  rw [BitVec.extractLsb'_toNat, Nat.shiftRight_eq_div_pow]
  omega

/-- Bits shifted out at the left of 16 are above every width. -/
theorem shifted_toNat_mod_modulus (i : Instr) (b : Word) (sh : Byte) :
    (shifted b sh).toNat % i.modulus = b.toNat / 2 ^ (sh.toNat % 16) * 2 ^ (sh.toNat / 16) % i.modulus := by
  rw [shifted, BitVec.toNat_shiftLeft, BitVec.toNat_ushiftRight, Nat.mod_mod_of_dvd _ (modulus_dvd i), lowNibble_toNat,
    highNibble_toNat, Nat.shiftLeft_eq, Nat.shiftRight_eq_div_pow]

/-- Settles O45: the shift is a byte in either width, and the 16-bit shifts agree with those on naturals mod 2^w. -/
theorem sftShiftsRightThenLeft : Obligations.SftShiftsRightThenLeft := by
  refine ⟨rfl, fun i hi s => ?_⟩
  have hexec : exec i s = runForm i.opcode opSft s := by fin_cases hi <;> rfl
  intro st d sh b
  rw [itemBytes_ofNat_mod_eq (shifted_toNat_mod_modulus i b sh)]
  refine runsAs_of_body hexec fun u hcursor hstack hshort hsize => ?_
  rw [opSft_eq, hcursor, hstack, hshort, hsize]

end Sys2Proof.Machine
end

section
/-! PROOFS. 45_device_bus R210 to R224: the device bus, the System device with the palette, and the Console. A written byte is stored
and then goes to the handler that owns the port's slot; what each handler does at each of its ports is said once, and every
statement about a port is read off it. -/
namespace Sys2Proof.Machine

/-! ### The owning handler (R212, R213) -/

section
variable (s : State) (p v : Byte)

theorem devWriteByte_of_system (h : p.toNat / 16 = 0) : devWriteByte p v s = systemHandler p v (s.setDevByte p v) := by
  rw [devWriteByte, deviceHandler, deviceSlot_eq, h]
  rfl

theorem devWriteByte_of_console (h : p.toNat / 16 = 1) : devWriteByte p v s = consoleHandler p v (s.setDevByte p v) := by
  rw [devWriteByte, deviceHandler, deviceSlot_eq, h]
  rfl

theorem devWriteByte_of_screen (h : p.toNat / 16 = 2) : devWriteByte p v s = screenHandler p (s.setDevByte p v) := by
  rw [devWriteByte, deviceHandler, deviceSlot_eq, h]
  rfl

theorem devWriteByte_of_unmapped (h : 3 ≤ p.toNat / 16) :
    devWriteByte p v s = (s.setDevByte p v).diag (.unmappedDevicePort p v) := by
  obtain ⟨n, hn⟩ := Nat.exists_eq_add_of_le' h
  rw [devWriteByte, deviceHandler, deviceSlot_eq, hn]
  rfl

end

/-- Settles O46: the slot of a port is its high digit, and a byte store is read back by the law of the device page. -/
theorem deviceWriteStoresThenHandles : Obligations.DeviceWriteStoresThenHandles := by
  intro s p v w
  exact ⟨rfl, rfl, devWriteByte_of_system s p v, devWriteByte_of_console s p v, devWriteByte_of_screen s p v,
    devWriteByte_of_unmapped s p v, rfl, fun hpage q => devByte_setDevByte s p q v hpage⟩

/-! ### The palette (R218, R219) -/

theorem expandNibble_eq_ofNat : ∀ n : Nibble, expandNibble n = BitVec.ofNat 8 (n.toNat * 17) := by decide

theorem channel_setChannel (c : Rgb) (ch ch' : Channel) (v : Byte) :
    (c.setChannel ch v).channel ch' = if ch' = ch then v else c.channel ch' := by
  cases ch <;> cases ch' <;> rfl

/-- Two neighbouring palette ports set the same channel, of different colours. -/
theorem paletteChannel_eq (p : Byte) (hlow : 0x08 ≤ p.toNat) :
    paletteChannel p = if (p.toNat - 8) / 2 = 0 then .red else if (p.toNat - 8) / 2 = 1 then .green else .blue := by
  have hred : (p = 0x08 ∨ p = 0x09) ↔ (p.toNat - 8) / 2 = 0 := by bv_omega
  have hgreen : (p = 0x0A ∨ p = 0x0B) ↔ (p.toNat - 8) / 2 = 1 := by bv_omega
  simp only [paletteChannel, hred, hgreen]

theorem colour_cases : ∀ c : Colour, c = 0 ∨ c = 1 ∨ c = 2 ∨ c = 3 := by decide

/-- A palette update changes one channel of the even colour and of the odd colour of one pair, the pair by the port's parity. -/
theorem colour_update (pal : Palette) (p v : Byte) (c : Colour) :
    (pal.update p v).colour c =
      if c.toNat = 2 * (p.toNat % 2) then (pal.colour c).setChannel (paletteChannel p) (expandNibble (v.extractLsb' 4 4))
      else if c.toNat = 2 * (p.toNat % 2) + 1 then
        (pal.colour c).setChannel (paletteChannel p) (expandNibble (v.extractLsb' 0 4))
      else pal.colour c := by
  have hbit : p.getLsbD 0 = decide (p.toNat % 2 = 1) := by
    rw [BitVec.getLsbD, Nat.testBit_zero]
  unfold Palette.update
  rw [hbit]
  obtain heven | hodd := Nat.mod_two_eq_zero_or_one p.toNat
  · rw [heven]
    obtain rfl | rfl | rfl | rfl := colour_cases c <;> rfl
  · rw [hodd]
    obtain rfl | rfl | rfl | rfl := colour_cases c <;> rfl

theorem systemHandler_of_palettePort (s : State) (p v : Byte) (h : 0x08 ≤ p.toNat ∧ p.toNat ≤ 0x0D) :
    systemHandler p v s = { s with palette := s.palette.update p v } := if_pos h

/-- Settles O47: the write is the palette update, whose colours are `colour_update`; a nibble doubled is the nibble times 17. -/
theorem paletteWriteSetsTwoChannels : Obligations.PaletteWriteSetsTwoChannels := by
  intro s p v hlow hhigh q c0
  have hwrite : devWriteByte p v s = { s.setDevByte p v with palette := s.palette.update p v } := by
    rw [devWriteByte_of_system s p v (by omega), systemHandler_of_palettePort _ p v ⟨hlow, hhigh⟩, setDevByte_palette]
  have hpair : 2 * (p.toNat % 2) = c0 := by omega
  rw [hwrite]
  refine ⟨fun c ch => ?_, rfl⟩
  rw [← paletteChannel_eq p hlow]
  dsimp only
  rw [colour_update, hpair, expandNibble_eq_ofNat, expandNibble_eq_ofNat, highNibble_toNat, lowNibble_toNat]
  simp only [apply_ite (Rgb.channel · ch), channel_setChannel]
  by_cases hch : ch = paletteChannel p
  · simp only [if_pos hch, if_neg (not_not_intro hch)]
  · simp only [if_neg hch, if_pos hch, ite_self]

/-! ### The Console (R222) -/

/-- Settles O48: every port of the slot goes to the Console handler, which tells 0x18 from the others. -/
theorem consoleWriteAppendsToTheSink : Obligations.ConsoleWriteAppendsToTheSink := by
  intro s p v hlow hhigh
  rw [devWriteByte_of_console s p v (by omega), consoleHandler, setDevByte_consoleOut]
  by_cases hport : p = 0x18
  · rw [if_pos hport, if_pos hport]
  · rw [if_neg hport, if_neg hport]
    rfl

/-! ### The slots that no device owns (R214) -/

/-- Settles O49: the store keeps the instruction at hand, whose address the record takes (60_exceptions R277). -/
theorem unmappedWriteIsStoredAndReported : Obligations.UnmappedWriteIsStoredAndReported := by
  intro s p v c hcurrent hport
  have haddr : (s.setDevByte p v).opAddr = c.address := opAddr_of_current _ _ hcurrent
  rw [devWriteByte_of_unmapped s p v (by omega), State.diag, haddr]
  rfl

/-! ### The storage-only ports (R216, R217, R221, 46_screen_blitter R231) -/

theorem systemHandler_of_inert (s : State) (p v : Byte) (h : ¬(0x08 ≤ p.toNat ∧ p.toNat ≤ 0x0D)) :
    systemHandler p v s = s := if_neg h

theorem screenHandler_of_inert (s : State) (p : Byte) (hwidth : p ≠ 0x23) (hheight : p ≠ 0x25) (hpixel : p ≠ 0x2E)
    (hsprite : p ≠ 0x2F) : screenHandler p s = s := by
  rw [screenHandler, if_neg hwidth, if_neg hheight, if_neg hpixel, if_neg hsprite]

/-- Settles O50: the listed ports are those of slots 0 and 2 that their handler does not name. -/
theorem inertPortsOnlyStore : Obligations.InertPortsOnlyStore := by
  intro s p v hport
  have hslot : (p.toNat / 16 = 0 ∧ ¬(0x08 ≤ p.toNat ∧ p.toNat ≤ 0x0D)) ∨
      (p.toNat / 16 = 2 ∧ p ≠ 0x23 ∧ p ≠ 0x25 ∧ p ≠ 0x2E ∧ p ≠ 0x2F) := by bv_omega
  obtain ⟨hsystem, hinert⟩ | ⟨hscreen, hwidth, hheight, hpixel, hsprite⟩ := hslot
  · rw [devWriteByte_of_system s p v hsystem, systemHandler_of_inert _ p v hinert]
  · rw [devWriteByte_of_screen s p v hscreen, screenHandler_of_inert _ p hwidth hheight hpixel hsprite]

end Sys2Proof.Machine
end

section
/-! PROOFS. 46_screen_blitter R235 to R252: the screen device and the sprite blitter. What is drawn is said by one relation between
two screens, `Screen.Painted`: inside a region the layer shows a picture, and everything else is as before. A single pixel
paints a region of at most one cell, and paintings of one picture compose, so a row and a tile are read off their pixels. -/
namespace Sys2Proof.Machine

/-! ### Present (R250) -/

/-- Settles O58: a presented state differs in the dirty flag alone, which `composite` does not read. -/
theorem presentReturnsAFrameOnlyWhenDirty : Obligations.PresentReturnsAFrameOnlyWhenDirty := by
  intro s hidle
  have hpresent : hostMove .present s = .next s.presented := by
    rw [hostMove, hidle, if_neg Bool.false_ne_true]
  refine ⟨hpresent, fun hdirty => if_pos hdirty, fun hclean => ?_, fun t ht => ?_⟩
  · rw [State.presentFrame, hclean, if_neg Bool.false_ne_true]
  · obtain rfl : s.presented = t := Host.Outcome.next.inj (hpresent.symm.trans ht)
    exact ⟨rfl, rfl, rfl⟩

/-! ### Composite (R249) -/

theorem pixelAt_rgb (s : State) (x y : Word) : (s.pixelAt x y).rgb = s.palette.colour (s.pixelAt x y).index := rfl

theorem pixelAt_index (s : State) (x y : Word) :
    (s.pixelAt x y).index = (s.screen.fgAt x y).shown.getD (s.screen.bgAt x y) := rfl

/-- Row y of a frame. -/
def State.frameRow (s : State) (y : Word) : List Pixel :=
  (List.range s.screen.width.toNat).map fun x => s.pixelAt (BitVec.ofNat 16 x) y

theorem frameRow_length (s : State) (y : Word) : (s.frameRow y).length = s.screen.width.toNat := by
  rw [State.frameRow, List.length_map, List.length_range]

theorem frameRow_getElem? (s : State) (x y : Word) (hx : x.toNat < s.screen.width.toNat) :
    (s.frameRow y)[x.toNat]? = some (s.pixelAt x y) := by
  rw [State.frameRow, List.getElem?_map, List.getElem?_range hx, Option.map_some, BitVec.ofNat_toNat, BitVec.setWidth_eq]

theorem composite_rows_length (s : State) : s.composite.rows.length = s.screen.height.toNat := by
  rw [State.composite, List.length_map, List.length_range]

theorem composite_rows_getElem? (s : State) (y : Word) (hy : y.toNat < s.screen.height.toNat) :
    s.composite.rows[y.toNat]? = some (s.frameRow y) := by
  rw [State.composite, List.getElem?_map, List.getElem?_range hy, Option.map_some, BitVec.ofNat_toNat, BitVec.setWidth_eq,
    State.frameRow]

/-- Settles O57: the pixel at (x, y) stands at those indices of the rows, and its index is that of the topmost layer shown. -/
theorem compositeOverlaysForegroundOnBackground : Obligations.CompositeOverlaysForegroundOnBackground := by
  intro s
  refine ⟨rfl, rfl, composite_rows_length s, fun x y hx hy => ?_⟩
  refine ⟨s.frameRow y, s.pixelAt x y, composite_rows_getElem? s y hy, frameRow_length s y, frameRow_getElem? s x y hx,
    pixelAt_rgb s x y, ?_⟩
  rw [pixelAt_index]
  refine ⟨?_, ?_, ?_, ?_⟩ <;> exact fun hfg => by rw [hfg]; rfl

/-! ### Resize (R235, R236) -/

theorem devWriteByte_0x23 (s : State) (v : Byte) : devWriteByte 0x23 v s = resizeWidth (s.setDevByte 0x23 v) :=
  devWriteByte_of_screen s 0x23 v rfl

theorem devWriteByte_0x25 (s : State) (v : Byte) : devWriteByte 0x25 v s = resizeHeight (s.setDevByte 0x25 v) :=
  devWriteByte_of_screen s 0x25 v rfl

/-- A field whose low byte has just been stored. -/
theorem devShort_setDevByte_low (s : State) (p v : Byte) (hpage : Cells.wf 0 s.dev = true) :
    (s.setDevByte (p + 1) v).devShort p = shortOf (s.devByte p) v := by
  rw [State.devShort, devByte_setDevByte s _ _ v hpage, devByte_setDevByte s _ _ v hpage, if_neg (port_ne_next p), if_pos rfl]

/-- Settles O51: the two writes resize to a field whose low byte is the one stored, and a resized layer has no cell listed. -/
theorem resizeLoadsOneDimensionAndClears : Obligations.ResizeLoadsOneDimensionAndClears := by
  intro s v hpage
  refine ⟨fun p hp => ?_, ?_⟩
  · have hport : p = 0x23 ∨ p = 0x25 := by simpa using hp
    obtain rfl | rfl := hport
    · rw [devWriteByte_0x23]
      exact ⟨fun _ _ => rfl, fun _ _ => rfl, rfl, rfl⟩
    · rw [devWriteByte_0x25]
      exact ⟨fun _ _ => rfl, fun _ _ => rfl, rfl, rfl⟩
  · rw [devWriteByte_0x23, devWriteByte_0x25]
    exact ⟨devShort_setDevByte_low s 0x22 v hpage, rfl, rfl, devShort_setDevByte_low s 0x24 v hpage⟩

/-! ### One pixel (R237 to R239) -/

theorem writePixel_of_outside (sc : Screen) (x y : Word) (c : Colour) (layer : Layer) (hout : ¬sc.inBounds x y = true) :
    sc.writePixel x y c layer = sc := if_neg hout

/-- A foreground write, with the case of an unchanged cell folded in: writing what a cell holds gives the same cells. -/
theorem writePixel_fg (sc : Screen) (x y : Word) (c : Colour) (hfg : Cells.wf .transparent sc.fg = true)
    (hin : sc.inBounds x y = true) :
    sc.writePixel x y c .fg = { sc with
      fg := Cells.write .transparent sc.fg (pixelIndex x y) (.ofColour c)
      dirty := sc.dirty || sc.fgAt x y != .ofColour c } := by
  rw [Screen.writePixel, if_pos hin]
  split
  next hsame => rw [write_same _ _ _ _ hfg hsame, hsame, bne_self_eq_false, Bool.or_false]
  next hdiff => rw [bne_iff_ne.2 hdiff, Bool.or_true]

/-- A background write, likewise. -/
theorem writePixel_bg (sc : Screen) (x y : Word) (c : Colour) (hbg : Cells.wf 0 sc.bg = true)
    (hin : sc.inBounds x y = true) :
    sc.writePixel x y c .bg = { sc with
      bg := Cells.write 0 sc.bg (pixelIndex x y) c
      dirty := sc.dirty || sc.bgAt x y != c } := by
  rw [Screen.writePixel, if_pos hin]
  split
  next hsame => rw [write_same _ _ _ _ hbg hsame, hsame, bne_self_eq_false, Bool.or_false]
  next hdiff => rw [bne_iff_ne.2 hdiff, Bool.or_true]

/-- A layer's cell after a write: its coordinates tell its index. -/
theorem read_write_pixelIndex {α : Type} [DecidableEq α] (dflt v : α) (cells : Cells α) (x y x' y' : Word)
    (h : Cells.wf dflt cells = true) :
    Cells.read dflt (Cells.write dflt cells (pixelIndex x y) v) (pixelIndex x' y') =
      if x' = x ∧ y' = y then v else Cells.read dflt cells (pixelIndex x' y') := by
  rw [read_write dflt cells _ _ v h]
  simp only [pixelIndex_inj]

/-- Settles O52: outside the live size the write is no change; inside, it is one write to the cells of its layer. -/
theorem writePixelChangesOneCellInBounds : Obligations.WritePixelChangesOneCellInBounds := by
  intro sc x y c layer hfg hbg out fits val
  by_cases hin : sc.inBounds x y = true
  · have hfits : fits := (inBounds_iff sc x y).1 hin
    cases layer with
    | fg =>
      have hout : out = _ := writePixel_fg sc x y c hfg hin
      rw [hout]
      refine ⟨rfl, rfl, fun x' y' => ?_, fun x' y' => ?_, ?_⟩
      · rw [Screen.fgAt, read_write_pixelIndex _ _ _ _ _ _ _ hfg]
        simp only [hfits, true_and]
        rfl
      · simp only [reduceCtorEq, false_and, if_false]
        rfl
      · simp only [Bool.or_eq_true, bne_iff_ne, hfits, true_and, reduceCtorEq, false_and, or_false]
        rfl
    | bg =>
      have hout : out = _ := writePixel_bg sc x y c hbg hin
      rw [hout]
      refine ⟨rfl, rfl, fun x' y' => ?_, fun x' y' => ?_, ?_⟩
      · simp only [reduceCtorEq, false_and, if_false]
        rfl
      · rw [Screen.bgAt, read_write_pixelIndex _ _ _ _ _ _ _ hbg]
        simp only [hfits, true_and]
        rfl
      · simp only [Bool.or_eq_true, bne_iff_ne, hfits, true_and, reduceCtorEq, false_and, false_or]
  · have hfits : ¬fits := fun h => hin ((inBounds_iff sc x y).2 h)
    have hout : out = sc := writePixel_of_outside sc x y c layer hin
    rw [hout]
    simp only [hfits, false_and, and_false, if_false, or_false, and_self, implies_true]

/-! ### Both layers as one -/

/-- The colour index of a layer's cell, T being 0 (R238): with it a statement about either layer is one statement. -/
def Screen.pixel (sc : Screen) (layer : Layer) (x y : Word) : Colour :=
  match layer with
  | .fg => (sc.fgAt x y).shown.getD 0
  | .bg => sc.bgAt x y

/-- A foreground cell is what a colour is stored as just when it shows that colour. -/
theorem FgCell.eq_ofColour_iff (cell : FgCell) (c : Colour) : cell = .ofColour c ↔ cell.shown.getD 0 = c := by
  revert c
  cases cell <;> decide

theorem fgAt_eq_ofColour_iff (sc : Screen) (x y : Word) (c : Colour) :
    sc.fgAt x y = .ofColour c ↔ sc.pixel .fg x y = c := FgCell.eq_ofColour_iff _ _

theorem fgAt_eq_ofColour_pixel (sc : Screen) (x y : Word) : sc.fgAt x y = .ofColour (sc.pixel .fg x y) :=
  (fgAt_eq_ofColour_iff sc x y _).2 rfl

theorem pixel_bg (sc : Screen) (x y : Word) : sc.pixel .bg x y = sc.bgAt x y := rfl

theorem inBounds_congr {sc sc' : Screen} (hw : sc'.width = sc.width) (hh : sc'.height = sc.height) (x y : Word) :
    sc'.inBounds x y = sc.inBounds x y := by
  rw [Screen.inBounds, hw, hh, Screen.inBounds]

/-- Both layers in canonical form. -/
abbrev Screen.Canonical (sc : Screen) : Prop := Cells.wf .transparent sc.fg = true ∧ Cells.wf 0 sc.bg = true

theorem Screen.Canonical.writePixel {sc : Screen} (h : sc.Canonical) (x y : Word) (c : Colour) (layer : Layer) :
    (sc.writePixel x y c layer).Canonical := by
  by_cases hin : sc.inBounds x y = true
  · cases layer with
    | fg =>
      rw [writePixel_fg sc x y c h.1 hin]
      exact ⟨wf_write _ _ _ _ h.1, h.2⟩
    | bg =>
      rw [writePixel_bg sc x y c h.2 hin]
      exact ⟨h.1, wf_write _ _ _ _ h.2⟩
  · rw [writePixel_of_outside sc x y c layer hin]
    exact h

theorem pixel_writePixel {sc : Screen} (h : sc.Canonical) (x y x' y' : Word) (c : Colour) (layer l : Layer) :
    (sc.writePixel x y c layer).pixel l x' y' =
      if layer = l ∧ sc.inBounds x y = true ∧ x' = x ∧ y' = y then c else sc.pixel l x' y' := by
  obtain ⟨-, -, hfg, hbg, -⟩ := writePixelChangesOneCellInBounds sc x y c layer h.1 h.2
  simp only [inBounds_iff]
  cases l with
  | fg =>
    rw [← fgAt_eq_ofColour_iff, hfg, apply_ite FgCell.ofColour, ← fgAt_eq_ofColour_pixel]
    rfl
  | bg => exact hbg x' y'

theorem dirty_writePixel {sc : Screen} (h : sc.Canonical) (x y : Word) (c : Colour) (layer : Layer) :
    (sc.writePixel x y c layer).dirty = true ↔
      sc.dirty = true ∨ (sc.inBounds x y = true ∧ sc.pixel layer x y ≠ c) := by
  obtain ⟨-, -, -, -, hdirty⟩ := writePixelChangesOneCellInBounds sc x y c layer h.1 h.2
  rw [hdirty, inBounds_iff]
  cases layer with
  | fg =>
    simp only [true_and, reduceCtorEq, false_and, or_false, ne_eq, ← fgAt_eq_ofColour_iff]
    rfl
  | bg =>
    simp only [true_and, reduceCtorEq, false_and, false_or, pixel_bg]

/-! ### What drawing keeps (R237, R239) -/

/-- The live size stays, and a dirty flag that is set stays set. -/
structure Screen.Keeps (sc out : Screen) : Prop where
  width : out.width = sc.width
  height : out.height = sc.height
  dirty : sc.dirty = true → out.dirty = true

theorem Screen.Keeps.refl (sc : Screen) : sc.Keeps sc := ⟨rfl, rfl, id⟩

theorem Screen.Keeps.trans {sc mid out : Screen} (h : sc.Keeps mid) (h' : mid.Keeps out) : sc.Keeps out :=
  ⟨h'.width.trans h.width, h'.height.trans h.height, fun hd => h'.dirty (h.dirty hd)⟩

theorem Screen.Keeps.foldl {ι : Type} {step : Screen → ι → Screen} (hstep : ∀ (sc : Screen) i, sc.Keeps (step sc i)) (l : List ι)
    (sc : Screen) : sc.Keeps (l.foldl step sc) :=
  List.foldlRecOn l step (.refl sc) fun mid hmid i _ => hmid.trans (hstep mid i)

theorem writePixel_keeps (sc : Screen) (x y : Word) (c : Colour) (layer : Layer) : sc.Keeps (sc.writePixel x y c layer) := by
  unfold Screen.writePixel
  split
  · cases layer with
    | fg =>
      dsimp only
      split
      · exact .refl sc
      · exact ⟨rfl, rfl, fun _ => rfl⟩
    | bg =>
      dsimp only
      split
      · exact .refl sc
      · exact ⟨rfl, rfl, fun _ => rfl⟩
  · exact .refl sc

theorem blitPixel_keeps (t : BlendTable) (m : SpriteMode) (x y : Word) (v : Nat) (p0 p1 : Byte) (sc : Screen) (h : Nat) :
    sc.Keeps (blitPixel t m x y v p0 p1 sc h) := by
  unfold blitPixel
  split
  · exact writePixel_keeps sc _ _ _ _
  · exact .refl sc

theorem blit_keeps (s : State) (m : SpriteMode) (x y : Word) (a : Nat) (sc : Screen) : sc.Keeps (blit s m x y a sc) :=
  .foldl (fun mid v => .foldl (fun last h => blitPixel_keeps _ m x y v _ _ last h) _ mid) _ sc

theorem drawTiles_keeps (s : State) (m : SpriteMode) (ctl : Byte) (count : Nat) :
    s.screen.Keeps (drawTiles s m ctl count) :=
  .foldl (fun mid _ => blit_keeps s m _ _ _ mid) _ s.screen

/-! ### Painting a region with a picture -/

/-- `out` is `sc` with `picture` drawn on `layer` wherever `region` lies inside the live size (R237): every other pixel of both
layers is as before, and dirty is set exactly when a pixel of the region showed another colour (R239). -/
structure Screen.Painted (layer : Layer) (picture : Word → Word → Colour) (region : Word → Word → Prop)
    (sc out : Screen) : Prop where
  canonical : out.Canonical
  width : out.width = sc.width
  height : out.height = sc.height
  inside : ∀ px py, sc.inBounds px py = true → region px py → out.pixel layer px py = picture px py
  outside : ∀ l px py, (layer = l → sc.inBounds px py = true → ¬region px py) → out.pixel l px py = sc.pixel l px py
  dirty : out.dirty = true ↔ sc.dirty = true ∨
    ∃ px py, sc.inBounds px py = true ∧ region px py ∧ sc.pixel layer px py ≠ picture px py

section
variable {layer : Layer} {picture : Word → Word → Colour}

theorem Screen.Painted.of_iff {region region' : Word → Word → Prop} {sc out : Screen}
    (h : Screen.Painted layer picture region sc out) (hiff : ∀ px py, region px py ↔ region' px py) :
    Screen.Painted layer picture region' sc out := by
  obtain rfl : region = region' := funext fun px => funext fun py => propext (hiff px py)
  exact h

theorem Screen.Painted.nothing {sc : Screen} (h : sc.Canonical) :
    Screen.Painted layer picture (fun _ _ => False) sc sc where
  canonical := h
  width := rfl
  height := rfl
  inside _ _ _ hr := hr.elim
  outside _ _ _ _ := rfl
  dirty := by simp only [false_and, and_false, exists_false, or_false]

/-- Two paintings of one picture, one after the other: where they overlap the second finds the picture's colour already there. -/
theorem Screen.Painted.trans {first second : Word → Word → Prop} {sc mid out : Screen}
    (h : Screen.Painted layer picture first sc mid) (h' : Screen.Painted layer picture second mid out) :
    Screen.Painted layer picture (fun px py => first px py ∨ second px py) sc out := by
  have hbounds := inBounds_congr h.width h.height
  refine ⟨h'.canonical, h'.width.trans h.width, h'.height.trans h.height, fun px py hin hr => ?_,
    fun l px py hout => ?_, ?_⟩
  · by_cases hs : second px py
    · exact h'.inside px py ((hbounds px py).trans hin) hs
    · rw [h'.outside layer px py fun _ _ => hs]
      exact h.inside px py hin (hr.resolve_right hs)
  · rw [h'.outside l px py fun hl hin hs => hout hl ((hbounds px py).symm.trans hin) (.inr hs)]
    exact h.outside l px py fun hl hin hf => hout hl hin (.inl hf)
  · rw [h'.dirty, h.dirty, or_assoc]
    refine or_congr_right ⟨?_, ?_⟩
    · rintro (⟨px, py, hin, hf, hne⟩ | ⟨px, py, hin, hs, hne⟩)
      · exact ⟨px, py, hin, .inl hf, hne⟩
      · rw [hbounds] at hin
        have hf : ¬first px py := fun hf => hne (h.inside px py hin hf)
        rw [h.outside layer px py fun _ _ => hf] at hne
        exact ⟨px, py, hin, .inr hs, hne⟩
    · rintro ⟨px, py, hin, hr, hne⟩
      by_cases hf : first px py
      · exact .inl ⟨px, py, hin, hf, hne⟩
      · rw [← h.outside layer px py fun _ _ => hf] at hne
        exact .inr ⟨px, py, (hbounds px py).trans hin, hr.resolve_left hf, hne⟩

/-- Steps that each paint a part of one picture paint, one after the other, all the parts. -/
theorem Screen.Painted.foldl {ι : Type} {step : Screen → ι → Screen} {part : ι → Word → Word → Prop} (l : List ι)
    (hstep : ∀ i ∈ l, ∀ sc : Screen, sc.Canonical → Screen.Painted layer picture (part i) sc (step sc i))
    (sc : Screen) (hsc : sc.Canonical) :
    Screen.Painted layer picture (fun px py => ∃ i ∈ l, part i px py) sc (l.foldl step sc) := by
  induction l generalizing sc with
  | nil =>
    exact (Screen.Painted.nothing hsc).of_iff fun px py => by simp only [List.not_mem_nil, false_and, exists_false]
  | cons i rest ih =>
    have hfirst := hstep i List.mem_cons_self sc hsc
    have hrest := ih (fun j hj => hstep j (List.mem_cons_of_mem i hj)) (step sc i) hfirst.canonical
    exact (hfirst.trans hrest).of_iff fun px py => (List.exists_mem_cons_iff (part · px py) i rest).symm

/-- One pixel paints its own cell. -/
theorem writePixel_painted {sc : Screen} (hsc : sc.Canonical) (x y : Word) (c : Colour) (hc : picture x y = c) :
    Screen.Painted layer picture (fun px py => px = x ∧ py = y) sc (sc.writePixel x y c layer) where
  canonical := hsc.writePixel x y c layer
  width := (writePixel_keeps sc x y c layer).width
  height := (writePixel_keeps sc x y c layer).height
  inside px py hin hr := by
    obtain ⟨rfl, rfl⟩ := hr
    rw [pixel_writePixel hsc, if_pos ⟨rfl, hin, rfl, rfl⟩, hc]
  outside l px py hout := by
    rw [pixel_writePixel hsc, if_neg]
    rintro ⟨hl, hin, rfl, rfl⟩
    exact hout hl hin ⟨rfl, rfl⟩
  dirty := by
    rw [dirty_writePixel hsc, ← hc]
    refine or_congr_right ⟨fun ⟨hin, hne⟩ => ⟨x, y, hin, ⟨rfl, rfl⟩, hne⟩, ?_⟩
    rintro ⟨px, py, hin, ⟨rfl, rfl⟩, hne⟩
    exact ⟨hin, hne⟩

end

/-! ### The pixels of a tile (R241 to R243) -/

/-- A column or row of a tile as a flip takes it: mirrored or not (R243). -/
def mirrored (flip : Bool) (n : Nat) : Nat := if flip then 7 - n else n

theorem mirrored_lt {n : Nat} (hn : n < 8) (flip : Bool) : mirrored flip n < 8 := by
  unfold mirrored
  split <;> omega

theorem mirrored_mirrored {n : Nat} (hn : n < 8) (flip : Bool) : mirrored flip (mirrored flip n) = n := by
  unfold mirrored
  split <;> omega

/-- Coordinate px is n past x, mod 2^16 (R252). -/
theorem eq_add_ofNat_iff (x px : Word) {n : Nat} (hn : n < 8) : px = x + BitVec.ofNat 16 n ↔ (px - x).toNat = n := by
  rw [← BitVec.toNat_inj, BitVec.toNat_add, BitVec.toNat_sub, BitVec.toNat_ofNat]
  omega

/-- Where column or row n of a tile at x is drawn. -/
theorem eq_add_mirrored_iff (x px : Word) {n : Nat} (hn : n < 8) (flip : Bool) :
    px = x + BitVec.ofNat 16 (mirrored flip n) ↔ (px - x).toNat < 8 ∧ mirrored flip (px - x).toNat = n := by
  rw [eq_add_ofNat_iff x px (mirrored_lt hn flip)]
  constructor
  · intro h
    rw [h]
    exact ⟨mirrored_lt hn flip, mirrored_mirrored hn flip⟩
  · rintro ⟨hlt, rfl⟩
    exact (mirrored_mirrored hlt flip).symm

/-- The class of column h, row v of a tile, as a colour index; `tileClass` is its number. -/
def tilePixelClass (s : State) (twoBpp : Bool) (a h v : Nat) : Colour :=
  pixelClass (s.ramByte (BitVec.ofNat 16 (a + v))) (if twoBpp then s.ramByte (BitVec.ofNat 16 (a + v + 8)) else 0) h

theorem pixelClass_toNat (p0 p1 : Byte) (h : Nat) :
    (pixelClass p0 p1 h).toNat = (p0.getLsbD (7 - h)).toNat + 2 * (p1.getLsbD (7 - h)).toNat := by
  unfold pixelClass
  cases p0.getLsbD (7 - h) <;> cases p1.getLsbD (7 - h) <;> rfl

theorem tilePixelClass_toNat (s : State) (twoBpp : Bool) (a h v : Nat) :
    (tilePixelClass s twoBpp a h v).toNat = tileClass s twoBpp a h v := by
  rw [tilePixelClass, pixelClass_toNat, tileClass]
  cases twoBpp with
  | false => simp only [Bool.false_eq_true, if_false, BitVec.ofNat_eq_ofNat, BitVec.getLsbD_zero, Bool.toNat_false, Nat.mul_zero]
  | true => rfl

theorem tilePixelClass_eq_zero_iff (s : State) (twoBpp : Bool) (a h v : Nat) :
    tilePixelClass s twoBpp a h v = 0 ↔ tileClass s twoBpp a h v = 0 := by
  rw [← tilePixelClass_toNat, ← BitVec.toNat_inj]
  rfl

/-- The blended colour by the number of the class. -/
theorem blendColour_eq (t : BlendTable) (ch : Colour) (sel : Nibble) :
    blendColour t ch sel = if ch.toNat = 0 then t.row0[sel.toNat] else if ch.toNat = 1 then t.row1[sel.toNat]
      else if ch.toNat = 2 then t.row2[sel.toNat] else t.row3[sel.toNat] := by
  obtain rfl | rfl | rfl | rfl := colour_cases ch <;> rfl

/-! ### A tile (R241) -/

section
variable (s : State) (m : SpriteMode) (x y : Word) (a : Nat)

/-- The column of the tile at x that is drawn at px. -/
def tileColumn (px : Word) : Nat := mirrored m.flipX (px - x).toNat

/-- The row of the tile at y that is drawn at py. -/
def tileRow (py : Word) : Nat := mirrored m.flipY (py - y).toNat

/-- The class of the tile's pixel that falls on (px, py). -/
def classOn (px py : Word) : Colour := tilePixelClass s m.twoBpp a (tileColumn m x px) (tileRow m y py)

/-- The tile as a picture: the blended colour at every coordinate. -/
def tilePicture (px py : Word) : Colour := blendColour s.cfg.blend (classOn s m x y a px py) m.sel

/-- The visible pixels of the tile: those of its 8 × 8 square whose class is nonzero, or all of them under an opaque selector. -/
def TileShows (px py : Word) : Prop :=
  (px - x).toNat < 8 ∧ (py - y).toNat < 8 ∧ (m.isOpaque = true ∨ classOn s m x y a px py ≠ 0)

theorem classOn_eq {px py : Word} {h v : Nat} (hcol : tileColumn m x px = h) (hrow : tileRow m y py = v) :
    classOn s m x y a px py = tilePixelClass s m.twoBpp a h v := by
  rw [classOn, hcol, hrow]

/-- Where column h, row v is drawn. -/
theorem tilePlace_iff {h v : Nat} (hh : h < 8) (hv : v < 8) (px py : Word) :
    (px = x + BitVec.ofNat 16 (mirrored m.flipX h) ∧ py = y + BitVec.ofNat 16 (mirrored m.flipY v)) ↔
      ((px - x).toNat < 8 ∧ tileColumn m x px = h) ∧ (py - y).toNat < 8 ∧ tileRow m y py = v :=
  and_congr (eq_add_mirrored_iff x px hh m.flipX) (eq_add_mirrored_iff y py hv m.flipY)

/-- The visible pixel of column h, row v is its place, if that column and row is visible at all. -/
theorem tileShows_at_iff {h v : Nat} (hh : h < 8) (hv : v < 8) (px py : Word) :
    (TileShows s m x y a px py ∧ tileColumn m x px = h ∧ tileRow m y py = v) ↔
      (m.isOpaque = true ∨ tilePixelClass s m.twoBpp a h v ≠ 0) ∧
        px = x + BitVec.ofNat 16 (mirrored m.flipX h) ∧ py = y + BitVec.ofNat 16 (mirrored m.flipY v) := by
  rw [tilePlace_iff m x y hh hv]
  constructor
  · rintro ⟨⟨hx, hy, hshown⟩, hcol, hrow⟩
    rw [classOn_eq s m x y a hcol hrow] at hshown
    exact ⟨hshown, ⟨hx, hcol⟩, hy, hrow⟩
  · rintro ⟨hshown, ⟨hx, hcol⟩, hy, hrow⟩
    rw [← classOn_eq s m x y a hcol hrow] at hshown
    exact ⟨⟨hx, hy, hshown⟩, hcol, hrow⟩

/-- The pixel of column h, row v is drawn in its blended colour, or skipped: either way that part of the tile is painted. -/
theorem blitPixel_painted {h v : Nat} (hh : h < 8) (hv : v < 8) {sc : Screen} (hsc : sc.Canonical) :
    Screen.Painted m.layer (tilePicture s m x y a)
      (fun px py => TileShows s m x y a px py ∧ tileColumn m x px = h ∧ tileRow m y py = v) sc
      (blitPixel s.cfg.blend m x y v (s.ramByte (BitVec.ofNat 16 (a + v)))
        (if m.twoBpp then s.ramByte (BitVec.ofNat 16 (a + v + 8)) else 0) sc h) := by
  have hregion := tileShows_at_iff s m x y a hh hv
  by_cases hshown : m.isOpaque = true ∨ tilePixelClass s m.twoBpp a h v ≠ 0
  · obtain ⟨⟨-, hcol⟩, -, hrow⟩ := (tilePlace_iff m x y hh hv _ _).1 ⟨rfl, rfl⟩
    have hcolour := congrArg (blendColour s.cfg.blend · m.sel) (classOn_eq s m x y a hcol hrow)
    rw [blitPixel, if_pos (by simpa [tilePixelClass] using hshown)]
    refine (writePixel_painted hsc _ _ _ hcolour).of_iff fun px py => ?_
    rw [hregion, and_iff_right hshown]
    rfl
  · rw [blitPixel, if_neg (by simpa [tilePixelClass] using hshown)]
    refine (Screen.Painted.nothing hsc).of_iff fun px py => ?_
    rw [hregion, iff_false_intro hshown, false_and]

/-- A row paints the tile's visible pixels of that row. -/
theorem blitRow_painted {v : Nat} (hv : v < 8) {sc : Screen} (hsc : sc.Canonical) :
    Screen.Painted m.layer (tilePicture s m x y a) (fun px py => TileShows s m x y a px py ∧ tileRow m y py = v) sc
      (blitRow s m x y a sc v) := by
  have hcolumns : ∀ h ∈ ([7, 6, 5, 4, 3, 2, 1, 0] : List Nat), h < 8 := by decide
  have hall : ∀ h < 8, h ∈ ([7, 6, 5, 4, 3, 2, 1, 0] : List Nat) := by decide
  refine (Screen.Painted.foldl _ (fun h hh mid hmid => blitPixel_painted s m x y a (hcolumns h hh) hv hmid) sc hsc).of_iff
    fun px py => ⟨?_, ?_⟩
  · rintro ⟨h, -, hshows, -, hrow⟩
    exact ⟨hshows, hrow⟩
  · rintro ⟨hshows, hrow⟩
    exact ⟨_, hall _ (mirrored_lt hshows.1 m.flipX), hshows, rfl, hrow⟩

/-- A tile paints its visible pixels. -/
theorem blit_painted {sc : Screen} (hsc : sc.Canonical) :
    Screen.Painted m.layer (tilePicture s m x y a) (TileShows s m x y a) sc (blit s m x y a sc) := by
  have hrows : ∀ v ∈ ([0, 1, 2, 3, 4, 5, 6, 7] : List Nat), v < 8 := by decide
  have hall : ∀ v < 8, v ∈ ([0, 1, 2, 3, 4, 5, 6, 7] : List Nat) := by decide
  refine (Screen.Painted.foldl _ (fun v hv mid hmid => blitRow_painted s m x y a (hrows v hv) hmid) sc hsc).of_iff
    fun px py => ⟨?_, ?_⟩
  · rintro ⟨v, -, hshows, -⟩
    exact hshows
  · intro hshows
    exact ⟨_, hall _ (mirrored_lt hshows.2.1 m.flipY), hshows, rfl⟩

end

/-- Settles O56: the blit paints the tile's picture on its visible pixels; what is drawn is that, inside the live size. -/
theorem blitDrawsTheTilePixelByPixel : Obligations.BlitDrawsTheTilePixelByPixel := by
  intro s m x y a sc hfg hbg out cx cy ch drawn t c
  have hpaint : Screen.Painted m.layer (tilePicture s m x y a) (TileShows s m x y a) sc out :=
    blit_painted s m x y a ⟨hfg, hbg⟩
  have hdrawn (px py : Word) : drawn px py ↔ sc.inBounds px py = true ∧ TileShows s m x y a px py := by
    have hclass : classOn s m x y a px py ≠ 0 ↔ ch px py ≠ 0 := not_congr (tilePixelClass_eq_zero_iff s m.twoBpp a _ _)
    rw [inBounds_iff, TileShows, hclass]
    tauto
  have hcolour (px py : Word) : tilePicture s m x y a px py = c px py := by
    rw [tilePicture, blendColour_eq, classOn, tilePixelClass_toNat]
    rfl
  refine ⟨hpaint.width, hpaint.height, ?_, fun px py => ⟨fun hd hl => ?_, fun hd hl => ?_, fun hd => ?_⟩⟩
  · rw [hpaint.dirty]
    refine or_congr_right (exists_congr fun px => exists_congr fun py => ?_)
    rw [hdrawn, and_assoc, hcolour]
    cases hl : m.layer <;>
      simp only [true_and, reduceCtorEq, false_and, or_false, false_or, ne_eq, fgAt_eq_ofColour_iff, pixel_bg]
  · obtain ⟨hin, hshows⟩ := (hdrawn px py).1 hd
    have hhere := hpaint.inside px py hin hshows
    rw [hl, hcolour] at hhere
    exact ⟨(fgAt_eq_ofColour_iff out px py _).2 hhere, hpaint.outside .bg px py fun h => by rw [hl] at h; cases h⟩
  · obtain ⟨hin, hshows⟩ := (hdrawn px py).1 hd
    have hhere := hpaint.inside px py hin hshows
    rw [hl, hcolour] at hhere
    have hother : out.pixel .fg px py = sc.pixel .fg px py := hpaint.outside .fg px py fun h => by rw [hl] at h; cases h
    refine ⟨hhere, ?_⟩
    rw [fgAt_eq_ofColour_pixel, hother, ← fgAt_eq_ofColour_pixel]
  · have hsame (l : Layer) : out.pixel l px py = sc.pixel l px py :=
      hpaint.outside l px py fun _ hin hshows => hd ((hdrawn px py).2 ⟨hin, hshows⟩)
    refine ⟨?_, hsame .bg⟩
    rw [fgAt_eq_ofColour_pixel, hsame, ← fgAt_eq_ofColour_pixel]

/-! ### The registers the commands read and write (R230, R245 to R248) -/

theorem devByte_setDevShort_apart (s : State) (p q : Byte) (v : Word) (hpage : Cells.wf 0 s.dev = true) (h0 : q ≠ p)
    (h1 : q ≠ p + 1) : (s.setDevShort p v).devByte q = s.devByte q := by
  rw [devByte_setDevShort s p q v hpage, if_neg h1, if_neg h0]

section
variable (s : State) (p v : Byte) (hpage : Cells.wf 0 s.dev = true) (hport : 0x2E ≤ p.toNat)
include hpage hport

/-! A command byte, stored at 0x2E or 0x2F, leaves the registers below it. -/

theorem autoCtl_setDevByte : (s.setDevByte p v).autoCtl = s.autoCtl := by
  rw [State.autoCtl, devByte_setDevByte s p _ v hpage, if_neg (by bv_omega), State.autoCtl]

theorem cursorX_setDevByte : (s.setDevByte p v).cursorX = s.cursorX :=
  devShort_setDevByte_apart s p 0x28 v hpage (by bv_omega) (by bv_omega)

theorem cursorY_setDevByte : (s.setDevByte p v).cursorY = s.cursorY :=
  devShort_setDevByte_apart s p 0x2A v hpage (by bv_omega) (by bv_omega)

theorem spriteAddr_setDevByte : (s.setDevByte p v).spriteAddr = s.spriteAddr :=
  devShort_setDevByte_apart s p 0x2C v hpage (by bv_omega) (by bv_omega)

end

theorem devByte_setDevByte_same (s : State) (p v : Byte) (hpage : Cells.wf 0 s.dev = true) :
    (s.setDevByte p v).devByte p = v := by
  rw [devByte_setDevByte s p p v hpage, if_pos rfl]

theorem devByte_setDevByte_apart (s : State) (p q v : Byte) (hpage : Cells.wf 0 s.dev = true) (h : q ≠ p) :
    (s.setDevByte p v).devByte q = s.devByte q := by
  rw [devByte_setDevByte s p q v hpage, if_neg h]

/-- The state with another screen. -/
def State.withScreen (s : State) (sc : Screen) : State := { s with screen := sc }

@[simp] theorem withScreen_screen (s : State) (sc : Screen) : (s.withScreen sc).screen = sc := rfl
@[simp] theorem withScreen_devByte (s : State) (sc : Screen) (p : Byte) : (s.withScreen sc).devByte p = s.devByte p := rfl
@[simp] theorem withScreen_cursorX (s : State) (sc : Screen) : (s.withScreen sc).cursorX = s.cursorX := rfl
@[simp] theorem withScreen_cursorY (s : State) (sc : Screen) : (s.withScreen sc).cursorY = s.cursorY := rfl

/-! ### The pixel command (R245) -/

/-- A field that is written only under a bit of CTL (R232). -/
def State.setDevShortIf (s : State) (advance : Bool) (p : Byte) (v : Word) : State :=
  if advance then s.setDevShort p v else s

section
variable (s : State) (advance : Bool) (p q : Byte) (v : Word)

@[simp] theorem setDevShortIf_screen : (s.setDevShortIf advance p v).screen = s.screen := by
  cases advance <;> rfl

theorem setDevShortIf_wf (hpage : Cells.wf 0 s.dev = true) : Cells.wf 0 (s.setDevShortIf advance p v).dev = true := by
  cases advance with
  | false => exact hpage
  | true => exact setDevShort_wf s p v hpage

theorem devShort_setDevShortIf_same (hpage : Cells.wf 0 s.dev = true) :
    (s.setDevShortIf advance p v).devShort p = if advance then v else s.devShort p := by
  cases advance with
  | false => rfl
  | true => exact devShort_setDevShort_same s p v hpage

theorem devShort_setDevShortIf_apart (hpage : Cells.wf 0 s.dev = true) (h0 : q ≠ p) (h1 : q ≠ p + 1) (h2 : q + 1 ≠ p) :
    (s.setDevShortIf advance p v).devShort q = s.devShort q := by
  cases advance with
  | false => rfl
  | true => exact devShort_setDevShort_apart s p q v hpage h0 h1 h2

theorem devByte_setDevShortIf_apart (hpage : Cells.wf 0 s.dev = true) (h0 : q ≠ p) (h1 : q ≠ p + 1) :
    (s.setDevShortIf advance p v).devByte q = s.devByte q := by
  cases advance with
  | false => rfl
  | true => exact devByte_setDevShort_apart s p q v hpage h0 h1

end

/-- The two cursor fields written, each under its own bit. -/
def State.advanceCursor (s : State) (stepX stepY : Bool) (x y : Word) : State :=
  (s.setDevShortIf stepX 0x28 x).setDevShortIf stepY 0x2A y

section
variable (s : State) (stepX stepY : Bool) (x y : Word)

@[simp] theorem advanceCursor_screen : (s.advanceCursor stepX stepY x y).screen = s.screen := by
  rw [State.advanceCursor, setDevShortIf_screen, setDevShortIf_screen]

variable (hpage : Cells.wf 0 s.dev = true)
include hpage

theorem advanceCursor_cursorX : (s.advanceCursor stepX stepY x y).cursorX = if stepX then x else s.cursorX :=
  (devShort_setDevShortIf_apart _ stepY 0x2A 0x28 y (setDevShortIf_wf s stepX 0x28 x hpage) (by decide) (by decide)
    (by decide)).trans (devShort_setDevShortIf_same s stepX 0x28 x hpage)

theorem advanceCursor_cursorY : (s.advanceCursor stepX stepY x y).cursorY = if stepY then y else s.cursorY := by
  have hold : (s.setDevShortIf stepX 0x28 x).devShort 0x2A = s.devShort 0x2A :=
    devShort_setDevShortIf_apart s stepX 0x28 0x2A x hpage (by decide) (by decide) (by decide)
  rw [State.cursorY, State.advanceCursor, devShort_setDevShortIf_same _ stepY 0x2A y (setDevShortIf_wf s stepX 0x28 x hpage),
    hold, State.cursorY]

theorem advanceCursor_devByte (p : Byte) (hp : p ∉ ([0x28, 0x29, 0x2A, 0x2B] : List Byte)) :
    (s.advanceCursor stepX stepY x y).devByte p = s.devByte p := by
  simp only [List.mem_cons, List.not_mem_nil, or_false, not_or] at hp
  obtain ⟨h28, h29, h2A, h2B⟩ := hp
  rw [State.advanceCursor, devByte_setDevShortIf_apart _ stepY 0x2A p y (setDevShortIf_wf s stepX 0x28 x hpage) h2A h2B,
    devByte_setDevShortIf_apart s stepX 0x28 p x hpage h28 h29]

end

theorem devWriteByte_0x2E (s : State) (f : Byte) : devWriteByte 0x2E f s = pixelCommand (s.setDevByte 0x2E f) :=
  devWriteByte_of_screen s 0x2E f rfl

/-- A write to 0x2E, said with the registers as they are before it. -/
theorem pixelWrite_eq (s : State) (f : Byte) (hpage : Cells.wf 0 s.dev = true) :
    devWriteByte 0x2E f s =
      ((s.setDevByte 0x2E f).withScreen
        (s.screen.writePixel s.cursorX s.cursorY (f.extractLsb' 0 2) (if f.getLsbD 6 then .fg else .bg))).advanceCursor
        (s.autoCtl.getLsbD 0) (s.autoCtl.getLsbD 1) (s.cursorX + 1) (s.cursorY + 1) := by
  rw [devWriteByte_0x2E, pixelCommand, devByte_setDevByte_same s 0x2E f hpage,
    autoCtl_setDevByte s 0x2E f hpage (by decide), cursorX_setDevByte s 0x2E f hpage (by decide),
    cursorY_setDevByte s 0x2E f hpage (by decide)]
  rfl

/-- Settles O53: one pixel, then the cursor, whose ports are the only ones written besides 0x2E. -/
theorem pixelCommandDrawsAndAdvances : Obligations.PixelCommandDrawsAndAdvances := by
  intro s f hpage t
  have hframe : ({ t with screen := s.screen, dev := s.dev } : State) = s := by
    obtain ⟨sc, d, heq⟩ := pixelCommand_eq (s.setDevByte 0x2E f)
    rw [show t = _ from (devWriteByte_0x2E s f).trans heq]
    rfl
  have hstored (sc : Screen) : Cells.wf 0 ((s.setDevByte 0x2E f).withScreen sc).dev = true := setDevByte_wf s 0x2E f hpage
  refine ⟨?_, ?_, ?_, fun p hp => ?_, ?_, hframe⟩ <;> rw [show t = _ from pixelWrite_eq s f hpage]
  · rw [advanceCursor_screen, withScreen_screen]
  · rw [advanceCursor_cursorX _ _ _ _ _ (hstored _), withScreen_cursorX, cursorX_setDevByte s 0x2E f hpage (by decide)]
  · rw [advanceCursor_cursorY _ _ _ _ _ (hstored _), withScreen_cursorY, cursorY_setDevByte s 0x2E f hpage (by decide)]
  · have hcursor : p ∉ ([0x28, 0x29, 0x2A, 0x2B] : List Byte) := fun h => hp (List.mem_append_left [0x2E] h)
    have hcommand : p ≠ 0x2E := by
      rintro rfl
      exact absurd hp (by decide)
    rw [advanceCursor_devByte _ _ _ _ _ (hstored _) p hcursor, withScreen_devByte,
      devByte_setDevByte_apart s 0x2E p f hpage hcommand]
  · rw [advanceCursor_devByte _ _ _ _ _ (hstored _) 0x2E (by decide), withScreen_devByte, devByte_setDevByte_same s 0x2E f hpage]

/-! ### The sprite command (R246 to R248) -/

theorem devWriteByte_0x2F (s : State) (f : Byte) : devWriteByte 0x2F f s = spriteCommand (s.setDevByte 0x2F f) :=
  devWriteByte_of_screen s 0x2F f rfl

theorem tileCount_eq (ctl : Byte) : tileCount ctl = ctl.toNat / 16 + 1 := by
  rw [tileCount, highNibble_toNat]

/-- The three registers a sprite command writes back (R248). -/
def State.writeBack (s : State) (x y a : Word) : State :=
  ((s.setDevShort 0x28 x).setDevShort 0x2A y).setDevShort 0x2C a

section
variable (s : State) (x y a : Word)

@[simp] theorem writeBack_screen : (s.writeBack x y a).screen = s.screen := rfl

/-- The write-back changes only the device page. -/
theorem writeBack_eq : ∃ d, s.writeBack x y a = { s with dev := d } := ⟨_, rfl⟩

/-- A command byte, a screen and the write-back change only the screen and the device page. -/
theorem writeBack_frame (p v : Byte) (sc : Screen) :
    ({ ((s.setDevByte p v).withScreen sc).writeBack x y a with screen := s.screen, dev := s.dev } : State) = s := by
  obtain ⟨d, hd⟩ := writeBack_eq ((s.setDevByte p v).withScreen sc) x y a
  rw [hd]
  rfl

variable (hpage : Cells.wf 0 s.dev = true)
include hpage

theorem writeBack_cursorX : (s.writeBack x y a).cursorX = x := by
  have hx := setDevShort_wf s 0x28 x hpage
  rw [State.cursorX, State.writeBack,
    devShort_setDevShort_apart _ _ _ a (setDevShort_wf _ 0x2A y hx) (by decide) (by decide) (by decide),
    devShort_setDevShort_apart _ _ _ y hx (by decide) (by decide) (by decide), devShort_setDevShort_same s _ x hpage]

theorem writeBack_cursorY : (s.writeBack x y a).cursorY = y := by
  have hx := setDevShort_wf s 0x28 x hpage
  rw [State.cursorY, State.writeBack,
    devShort_setDevShort_apart _ _ _ a (setDevShort_wf _ 0x2A y hx) (by decide) (by decide) (by decide),
    devShort_setDevShort_same _ _ y hx]

theorem writeBack_spriteAddr : (s.writeBack x y a).spriteAddr = a :=
  devShort_setDevShort_same _ 0x2C a (setDevShort_wf _ 0x2A y (setDevShort_wf s 0x28 x hpage))

theorem writeBack_devByte (p : Byte) (hp : p ∉ ([0x28, 0x29, 0x2A, 0x2B, 0x2C, 0x2D] : List Byte)) :
    (s.writeBack x y a).devByte p = s.devByte p := by
  have hx := setDevShort_wf s 0x28 x hpage
  simp only [List.mem_cons, List.not_mem_nil, or_false, not_or] at hp
  obtain ⟨h28, h29, h2A, h2B, h2C, h2D⟩ := hp
  rw [State.writeBack, devByte_setDevShort_apart _ _ p a (setDevShort_wf _ 0x2A y hx) h2C h2D,
    devByte_setDevShort_apart _ _ p y hx h2A h2B, devByte_setDevShort_apart s _ p x hpage h28 h29]

end

/-- Drawing reads RAM, the parameters and the registers, none of which is the command byte. -/
theorem drawTiles_setDevByte (s : State) (f : Byte) (m : SpriteMode) (ctl : Byte) (count : Nat)
    (hpage : Cells.wf 0 s.dev = true) : drawTiles (s.setDevByte 0x2F f) m ctl count = drawTiles s m ctl count := by
  rw [drawTiles, cursorX_setDevByte s 0x2F f hpage (by decide), cursorY_setDevByte s 0x2F f hpage (by decide),
    spriteAddr_setDevByte s 0x2F f hpage (by decide)]
  rfl

section
variable (s : State) (f : Byte) (hpage : Cells.wf 0 s.dev = true)
include hpage

/-! A write to 0x2F, said with the registers as they are before it. -/

theorem spriteWrite_of_past (hpast : ramSize < s.spriteAddr.toNat + tileCount s.autoCtl * tileBytes (f.getLsbD 7)) :
    devWriteByte 0x2F f s = (s.setDevByte 0x2F f).diag
      (.spriteReadOutOfBounds s.spriteAddr (tileCount s.autoCtl * tileBytes (f.getLsbD 7))) := by
  rw [devWriteByte_0x2F, spriteCommand, devByte_setDevByte_same s 0x2F f hpage,
    autoCtl_setDevByte s 0x2F f hpage (by decide), spriteAddr_setDevByte s 0x2F f hpage (by decide)]
  exact if_pos hpast

theorem spriteWrite_of_fits (hfits : s.spriteAddr.toNat + tileCount s.autoCtl * tileBytes (f.getLsbD 7) ≤ ramSize) :
    devWriteByte 0x2F f s =
      ((s.setDevByte 0x2F f).withScreen
        (drawTiles s (spriteMode s.cfg.blend f) s.autoCtl (tileCount s.autoCtl))).writeBack
        (s.cursorX + spriteDx s.autoCtl) (s.cursorY + spriteDy s.autoCtl)
        (BitVec.ofNat 16 (s.spriteAddr.toNat + tileStep s.cfg s.autoCtl (f.getLsbD 7) * tileCount s.autoCtl)) := by
  rw [devWriteByte_0x2F, spriteCommand, devByte_setDevByte_same s 0x2F f hpage,
    autoCtl_setDevByte s 0x2F f hpage (by decide), spriteAddr_setDevByte s 0x2F f hpage (by decide),
    cursorX_setDevByte s 0x2F f hpage (by decide), cursorY_setDevByte s 0x2F f hpage (by decide)]
  refine (if_neg (Nat.not_lt.2 hfits)).trans ?_
  rw [drawTiles_setDevByte s f _ _ _ hpage]
  rfl

end

/-- Settles O54: the run is the tile count times the bytes of a tile, and the record takes the address of the instruction
at hand (60_exceptions R277). -/
theorem spriteOutOfBoundsDrawsNothing : Obligations.SpriteOutOfBoundsDrawsNothing := by
  intro s f c hcurrent hpage len hpast
  have hlen : tileCount s.autoCtl * tileBytes (f.getLsbD 7) = len := by rw [tileCount_eq, tileBytes]
  have haddr : (s.setDevByte 0x2F f).opAddr = c.address := opAddr_of_current _ _ hcurrent
  rw [spriteWrite_of_past s f hpage (hlen ▸ hpast), hlen, State.diag, haddr]
  rfl

/-- Settles O55: in bounds the write is `drawTiles` and the write-back, which touches none but its six ports. -/
theorem spriteCommandDrawsAndWritesBack : Obligations.SpriteCommandDrawsAndWritesBack := by
  intro s f hpage ctl n two dx dy step m t hfits
  have hcount : tileCount s.autoCtl = n + 1 := tileCount_eq ctl
  have hwrite := spriteWrite_of_fits s f hpage (by rw [hcount]; exact hfits)
  rw [hcount] at hwrite
  have hstored (sc : Screen) : Cells.wf 0 ((s.setDevByte 0x2F f).withScreen sc).dev = true := setDevByte_wf s 0x2F f hpage
  have hscreen : t.screen = drawTiles s m ctl (n + 1) := by
    rw [show t = _ from hwrite, writeBack_screen, withScreen_screen]
    rfl
  have hkeeps := drawTiles_keeps s m ctl (n + 1)
  rw [hscreen, show t = _ from hwrite]
  refine ⟨rfl, hkeeps.width, hkeeps.height, hkeeps.dirty, writeBack_cursorX _ _ _ _ (hstored _),
    writeBack_cursorY _ _ _ _ (hstored _), writeBack_spriteAddr _ _ _ _ (hstored _), fun p hp => ?_, ?_,
    writeBack_frame s _ _ _ 0x2F f _⟩
  · have hregisters : p ∉ ([0x28, 0x29, 0x2A, 0x2B, 0x2C, 0x2D] : List Byte) := fun h => hp (List.mem_append_left [0x2F] h)
    have hcommand : p ≠ 0x2F := by
      rintro rfl
      exact absurd hp (by decide)
    rw [writeBack_devByte _ _ _ _ (hstored _) p hregisters, withScreen_devByte, devByte_setDevByte_apart s 0x2F p f hpage hcommand]
  · rw [writeBack_devByte _ _ _ _ (hstored _) 0x2F (by decide), withScreen_devByte, devByte_setDevByte_same s 0x2F f hpage]

end Sys2Proof.Machine
end

section
/-! PROOFS. 60_exceptions R292: the core does nothing between `evaluate` calls. The counterpart of `step_of_running`: with no
evaluate running, nothing is fetched. -/
namespace Sys2Proof.Machine

/-- Settles O6: with no evaluate running the step takes its idle branch, in which no instruction is fetched, executed or
counted. -/
theorem stepDoesNothingBetweenEvaluates : Obligations.StepDoesNothingBetweenEvaluates := by
  intro s hidle
  rw [step, hidle, if_neg Bool.false_ne_true]

end Sys2Proof.Machine
end

section
/-! PROOFS. 70_reset R300 to R314: the host's transactions. What each transaction answers is said once, as an equation per branch;
then what it makes of RAM, and that it keeps the machine's invariant. -/
namespace Sys2Proof.Machine

variable {s : State}

/-! ### What a transaction answers (R300, R310 to R314) -/

theorem hostMove_of_running (m : HostMove) (h : s.running = true) : hostMove m s = .fault .transactionWhileRunning :=
  if_pos h

theorem hostMove_recreate (h : s.running = false) : hostMove .recreate s = .next (State.create s.cfg) :=
  if_neg (ne_true_of_eq_false h)

theorem hostMove_present (h : s.running = false) : hostMove .present s = .next s.presented :=
  if_neg (ne_true_of_eq_false h)

theorem hostMove_drainConsole (h : s.running = false) : hostMove .drainConsole s = .next { s with consoleOut := [] } :=
  if_neg (ne_true_of_eq_false h)

theorem hostMove_drainDiagnostics (h : s.running = false) :
    hostMove .drainDiagnostics s = .next { s with diagnostics := [] } :=
  if_neg (ne_true_of_eq_false h)

theorem imageFits_iff (image : List Byte) : imageFits image = true ↔ image.length ≤ 0xFF00 := decide_eq_true_iff

theorem hostMove_load_of_fits {image : List Byte} (h : s.running = false) (hopen : s.loadOpen = true)
    (hfits : image.length ≤ 0xFF00) :
    hostMove (.load image) s = .next { s.storeBytes loadOffset image with loadOpen := false } := by
  rw [hostMove, if_neg (ne_true_of_eq_false h)]
  exact (if_pos hopen).trans (if_pos ((imageFits_iff image).2 hfits))

theorem hostMove_load_of_tooLong {image : List Byte} (h : s.running = false) (hopen : s.loadOpen = true)
    (hlong : 0xFF00 < image.length) : hostMove (.load image) s = .refused .imageTooLong := by
  rw [hostMove, if_neg (ne_true_of_eq_false h)]
  exact (if_pos hopen).trans (if_neg fun hfits => Nat.not_le.2 hlong ((imageFits_iff image).1 hfits))

theorem hostMove_load_of_closed (image : List Byte) (h : s.running = false) (hclosed : s.loadOpen = false) :
    hostMove (.load image) s = .fault .loadNotOpen := by
  rw [hostMove, if_neg (ne_true_of_eq_false h)]
  exact if_neg (ne_true_of_eq_false hclosed)

/-- A load has a next state only where its image is stored: closed or overlong it has none. -/
theorem hostMove_load_next {image : List Byte} {t : State} (h : s.running = false)
    (hload : hostMove (.load image) s = .next t) : t = { s.storeBytes loadOffset image with loadOpen := false } := by
  cases hopen : s.loadOpen with
  | false =>
    rw [hostMove_load_of_closed image h hopen] at hload
    cases hload
  | true =>
    obtain hfits | hlong := le_or_gt image.length 0xFF00
    · rw [hostMove_load_of_fits h hopen hfits] at hload
      exact (Host.Outcome.next.inj hload).symm
    · rw [hostMove_load_of_tooLong h hopen hlong] at hload
      cases hload

/-- Settles O60: the transactions test `running` before anything else, and between evaluates each is its own change of state. -/
theorem hostActsOnlyBetweenEvaluates : Obligations.HostActsOnlyBetweenEvaluates := fun _ =>
  ⟨fun hrun m => hostMove_of_running m hrun, fun hidle =>
    ⟨hostMove_recreate hidle, hostMove_drainConsole hidle, hostMove_drainDiagnostics hidle⟩⟩

/-! ### The load (R310) -/

/-- The byte at address `b` after an image of at most the size of RAM was stored from address `a` on: the image's byte at the
distance from `a` to `b` around RAM, or, past the image's end, the byte as it was. -/
theorem ramByte_storeBytes (image : List Byte) (a b : Word) (hram : Memory.wf s.ram = true) (hlen : image.length ≤ 0x10000) :
    (s.storeBytes a image).ramByte b = image.getD (b - a).toNat (s.ramByte b) := by
  induction image generalizing s a with
  | nil => rfl
  | cons v rest ih =>
    rw [List.length_cons] at hlen
    rw [State.storeBytes, ih (a + 1) (setRamByte_wf s a v hram) (by omega), ramByte_setRamByte s a b v hram]
    by_cases hb : b = a
    · have hfar : (b - (a + 1)).toNat = 0xFFFF := by bv_omega
      have hhere : (b - a).toNat = 0 := by bv_omega
      rw [if_pos hb, hfar, hhere, List.getD_cons_zero]
      exact List.getD_eq_default _ _ (by omega)
    · have hnext : (b - a).toNat = (b - (a + 1)).toNat + 1 := by bv_omega
      rw [if_neg hb, hnext, List.getD_cons_succ]

/-- An image that fits is stored from 0x0100 on without wrapping, so it leaves every address below as it was. -/
theorem ramByte_storeBytes_loadOffset (image : List Byte) (a : Word) (hram : Memory.wf s.ram = true)
    (hfits : image.length ≤ 0xFF00) :
    (s.storeBytes loadOffset image).ramByte a =
      if 0x0100 ≤ a.toNat ∧ a.toNat < 0x0100 + image.length then image.getD (a.toNat - 0x0100) 0 else s.ramByte a := by
  rw [ramByte_storeBytes image loadOffset a hram (by omega)]
  have hdist : (a - loadOffset).toNat = if 0x0100 ≤ a.toNat then a.toNat - 0x0100 else a.toNat + 0xFF00 := by
    unfold loadOffset
    split <;> bv_omega
  split
  next hin =>
    have hindex : a.toNat - 0x0100 < image.length := by omega
    rw [hdist, if_pos hin.1, List.getD_eq_getElem _ _ hindex, List.getD_eq_getElem _ _ hindex]
  next hout =>
    refine List.getD_eq_default _ _ ?_
    rw [hdist]
    split <;> omega

/-- Settles O59: the load stores the image byte by byte, which changes RAM alone, and is closed after it. -/
theorem loadCopiesTheImageToItsOffset : Obligations.LoadCopiesTheImageToItsOffset := by
  intro s image hidle hram
  refine ⟨fun hopen hfits => ?_, hostMove_load_of_tooLong hidle, hostMove_load_of_closed image hidle⟩
  have hread := fun a => ramByte_storeBytes_loadOffset image a hram hfits
  obtain ⟨m, hstored⟩ := storeBytes_eq image s loadOffset
  refine ⟨m, ?_, ?_⟩
  · rw [hostMove_load_of_fits hidle hopen hfits, hstored]
  · rw [hstored] at hread
    exact hread

/-! ### The invariant at creation (R300, 10_state R42) -/

theorem Palette.black_wf : Palette.black.Wf := by decide

theorem create_sound {cfg : Config} (h : cfg.wellFormed = true) : (State.create cfg).Sound where
  cfg := h
  ram := rfl
  page := rfl
  ports := rfl
  bothStacks id := by cases id <;> exact ⟨rfl, rfl⟩
  screen := ⟨rfl, rfl, rfl, rfl⟩
  palette := Palette.black_wf

theorem create_inv {cfg : Config} (h : cfg.wellFormed = true) : (State.create cfg).Inv :=
  (inv_iff_sound _).2 ⟨create_sound h, nofun, fun _ => ⟨rfl, rfl, rfl, rfl, rfl, rfl, rfl⟩⟩

/-- Settles O14: empty regions are canonical, black is a doubled nibble in every channel, and the default `BUDGET` is positive. -/
theorem creationMeetsTheInvariant : Obligations.CreationMeetsTheInvariant :=
  ⟨fun _ h => create_inv h, create_inv rfl⟩

/-! ### The invariant under a transaction (R310 to R313) -/

/-- The load stores into RAM, which keeps its canonical form, and closes itself, which a running evaluate asks for. -/
theorem State.Inv.loaded (h : s.Inv) (image : List Byte) :
    State.Inv { s.storeBytes loadOffset image with loadOpen := false } := by
  obtain ⟨hs, hrun, hidle⟩ := (inv_iff_sound s).1 h
  have hram := storeBytes_wf s loadOffset image hs.ram
  obtain ⟨m, hstored⟩ := storeBytes_eq image s loadOffset
  rw [hstored] at hram ⊢
  refine (inv_iff_sound _).2 ⟨⟨hs.cfg, hram, hs.page, hs.ports, hs.bothStacks, hs.screen, hs.palette⟩, fun hr => ?_, hidle⟩
  obtain ⟨hhalt, hkptr, hcurrent, hpos, hle, -⟩ := hrun hr
  exact ⟨hhalt, hkptr, hcurrent, hpos, hle, rfl⟩

/-- The loop is entered with a full budget, no keep pointer and the load closed (40_execution_cycle R111). -/
theorem State.Sound.enterEvaluate_inv (h : s.Sound) (v : Word) (hhalt : s.halted = false) : (s.enterEvaluate v).Inv :=
  (inv_iff_sound _).2
    ⟨⟨h.cfg, h.ram, h.page, h.ports, h.bothStacks, h.screen, h.palette⟩,
      fun _ => ⟨hhalt, rfl, rfl, of_decide_eq_true h.cfg, le_rfl, rfl⟩, nofun⟩

/-- A halted machine enters no loop, so a loop is entered only where `MidRun` can hold. -/
theorem State.Inv.evaluate (h : s.Inv) (v : Word) : (s.evaluate v).Inv := by
  unfold State.evaluate
  split
  · exact h
  next henters =>
    obtain ⟨-, hhalt⟩ := not_or.1 henters
    exact ((inv_iff_sound s).1 h).1.enterEvaluate_inv v (Bool.eq_false_of_not_eq_true hhalt)

/-- The invariant does not read the dirty flag. -/
theorem State.Inv.presented (h : s.Inv) : s.presented.Inv := h

/-- The invariant does not read the streams. -/
theorem State.Inv.setStreams (h : s.Inv) (console : List Byte) (records : List Diagnostic) :
    State.Inv { s with consoleOut := console, diagnostics := records } := h

theorem inv_of_next {o : Host.Outcome State Fault Refusal} {u t : State} (hu : u.Inv) (ho : o = .next u)
    (ht : o = .next t) : t.Inv :=
  Host.Outcome.next.inj (ho.symm.trans ht) ▸ hu

/-- Settles O15: a transaction with a next state is made between evaluates, and its own change of state keeps the invariant. -/
theorem hostTransactionsKeepTheInvariant : Obligations.HostTransactionsKeepTheInvariant := by
  intro m s t hinv hmove
  cases hidle : s.running with
  | true =>
    rw [hostMove_of_running m hidle] at hmove
    cases hmove
  | false =>
    cases m with
    | recreate => exact inv_of_next (create_inv hinv.1) (hostMove_recreate hidle) hmove
    | load image => exact hostMove_load_next hidle hmove ▸ hinv.loaded image
    | evaluate v => exact inv_of_next (hinv.evaluate v) (hostMove_evaluate v hidle) hmove
    | present => exact inv_of_next hinv.presented (hostMove_present hidle) hmove
    | drainConsole => exact inv_of_next (hinv.setStreams [] _) (hostMove_drainConsole hidle) hmove
    | drainDiagnostics => exact inv_of_next (hinv.setStreams _ []) (hostMove_drainDiagnostics hidle) hmove

end Sys2Proof.Machine
end
